-- ==== Sys2Proof/Word.lean ====
section
/-! DEFINITION. The byte, the 32-bit word and the byte string every other file is written over. -/

namespace Sys2Proof

/-- A byte, an integer 0 to 255 (00_scope.md R13). -/
abbrev Byte := BitVec 8

/-- A 32-bit register or bus word, bits numbered 31 down to 0 (00_scope.md R14). -/
abbrev Word := BitVec 32

/-- A byte string, a finite sequence of bytes (00_scope.md R13). -/
abbrev Bytes := List Byte

end Sys2Proof
end

