-- ==== Sys2Proof/Config.lean ====
section
/-! DEFINITION. What an implementation fixes (00_scope.md R11) and the free values of the model
(93_implementation_defined.md U1, U2). -/

namespace Sys2Proof

/-- The implementation parameters of 00_scope.md R11. The spec gives them to the model as arguments
(92_eei_decisions.md D2), so every definition takes them from the state and none assumes the defaults. -/
structure Params where
  /-- Width of a buffer-memory byte address, legal values 8 to 16. -/
  bufAddrBits : Nat
  /-- Number of key slots, legal values 1 to 16. -/
  nks : Nat
  /-- Largest signing-key length a slot holds in bytes, legal values 128 to 960. -/
  maxSkl : Nat
  deriving DecidableEq, Repr

/-- The default column of 00_scope.md R11. -/
def Params.default : Params := { bufAddrBits := 16, nks := 2, maxSkl := 256 }

/-- `BUF_SIZE` is derived from `BUF_ADDR_BITS` (00_scope.md R11). -/
def Params.bufSize (p : Params) : Nat := 2 ^ p.bufAddrBits

/-- The legal values column of 00_scope.md R11. -/
def Params.legal (p : Params) : Bool :=
  decide (8 ≤ p.bufAddrBits) && decide (p.bufAddrBits ≤ 16) &&
  decide (1 ≤ p.nks) && decide (p.nks ≤ 16) &&
  decide (128 ≤ p.maxSkl) && decide (p.maxSkl ≤ 960)

/-- The free value an unwritten `BUF` byte reads as (93_implementation_defined.md U1, "a draw from an
oracle"): it depends on the draw counter of the state, on which input of the command reads the byte, and on
the buffer address, and nothing constrains it. Log 3. -/
opaque Config.unwrittenByte : (draw port addr : Nat) → Byte

/-- The free value of one byte that a host read of `BUF` or of the key-slot window returns while the engine
is busy (93_implementation_defined.md U2, "a draw from an oracle, never a fixed value"). Log 4. -/
opaque Config.busyReadByte : (draw off : Nat) → Byte

end Sys2Proof
end

