-- ==== Sys2Proof/Syntax.lean ====
section
/-! DEFINITION. The commands of the block, one constructor per row of spec/opcode_table.json, and the two
closed selector enumerations. -/

namespace Sys2Proof

/-- The hash variants in scope (00_scope.md R4). -/
inductive HashVariant where
  | sha1
  | sha256
  deriving DecidableEq, Repr

/-- The cipher algorithms in scope (00_scope.md R4). -/
inductive CipherAlg where
  | aes128cbc
  | aes256cbc
  deriving DecidableEq, Repr

/-- A decoded command word. Operands are the natural numbers of 30_encoding.md R114: a reserved selector
value (2 or 3) and any slot number 0 to 15 decode as the command (R118), and its meaning reports CONFIG. -/
inductive Instr where
  /-- `PRF_DERIVE [<hash>]` (41_prf.md R205). -/
  | prfDerive (hash : Nat)
  /-- `KEY_DERIVE <slot>, <alg>[, <hash>]` (42_key_scheduler.md R225). -/
  | keyDerive (slot hash alg : Nat)
  /-- `KEY_CLEAR <slot>` (42_key_scheduler.md R230). -/
  | keyClear (slot : Nat)
  /-- `PAD_FOOTER <bs>` (43_padding.md R252). -/
  | padFooter (bs : Nat)
  /-- `PAD_STRIP` (43_padding.md R256). -/
  | padStrip
  /-- `CBC_ENCRYPT <slot>` (44_cbc_cipher.md R272). -/
  | cbcEncrypt (slot : Nat)
  /-- `CBC_DECRYPT <slot>` (44_cbc_cipher.md R276). -/
  | cbcDecrypt (slot : Nat)
  /-- `HMAC_SIGN <slot>` (45_hmac_signature.md R292). -/
  | hmacSign (slot : Nat)
  /-- `HMAC_VERIFY <slot>` (45_hmac_signature.md R296). -/
  | hmacVerify (slot : Nat)
  /-- `PROTECT_CHUNK <slot>` (46_chunk_pipeline.md R312). -/
  | protectChunk (slot : Nat)
  /-- `UNPROTECT_CHUNK <slot>` (46_chunk_pipeline.md R316). -/
  | unprotectChunk (slot : Nat)
  deriving DecidableEq, Repr

end Sys2Proof
end

