-- ==== Sys2Proof/WellFormed.lean ====
section
/-! DEFINITION. Which commands a command word can carry: every operand fits its field (30_encoding.md R111). -/

namespace Sys2Proof

/-- A slot number fits SLOT[11:8] (30_encoding.md R111). -/
def slotFits (slot : Nat) : Bool := decide (slot < 16)

/-- A selector fits HASH[13:12] or ALG[15:14] (30_encoding.md R111). -/
def selectorFits (sel : Nat) : Bool := decide (sel < 4)

/-- A block size fits IMM8[31:24] (30_encoding.md R111). -/
def immFits (imm : Nat) : Bool := decide (imm < 256)

/-- Every operand of the command fits the field that carries it. -/
def Instr.wellFormed : Instr → Bool
  | .prfDerive hash => selectorFits hash
  | .keyDerive slot hash alg => slotFits slot && selectorFits hash && selectorFits alg
  | .keyClear slot => slotFits slot
  | .padFooter bs => immFits bs
  | .padStrip => true
  | .cbcEncrypt slot => slotFits slot
  | .cbcDecrypt slot => slotFits slot
  | .hmacSign slot => slotFits slot
  | .hmacVerify slot => slotFits slot
  | .protectChunk slot => slotFits slot
  | .unprotectChunk slot => slotFits slot

end Sys2Proof
end

