-- ==== Sys2Proof/Decode.lean ====
section
/-! DEFINITION. Decoding a command word by the opcode map of 30_encoding.md R115, rejecting by name, and the
encoder of 30_encoding.md R119. -/

namespace Sys2Proof

/-- Why a word is illegal (60_exceptions.md R331). All three complete with the one error code ILLEGAL. -/
inductive IllegalWord where
  /-- OPC 0x00 or 0x0C to 0xFF. -/
  | unassignedOpcode
  /-- RSV is not zero. -/
  | reservedFieldSet
  /-- A field the opcode does not use is not zero (30_encoding.md R113). -/
  | unusedFieldSet
  deriving DecidableEq, Repr

/-- Field OPC, bits 7 to 0 (30_encoding.md R111). -/
def fieldOpc (w : Word) : Nat := (w.extractLsb' 0 8).toNat

/-- Field SLOT, bits 11 to 8 (30_encoding.md R111). -/
def fieldSlot (w : Word) : Nat := (w.extractLsb' 8 4).toNat

/-- Field HASH, bits 13 to 12 (30_encoding.md R111). -/
def fieldHash (w : Word) : Nat := (w.extractLsb' 12 2).toNat

/-- Field ALG, bits 15 to 14 (30_encoding.md R111). -/
def fieldAlg (w : Word) : Nat := (w.extractLsb' 14 2).toNat

/-- Field RSV, bits 23 to 16 (30_encoding.md R111). -/
def fieldRsv (w : Word) : Nat := (w.extractLsb' 16 8).toNat

/-- Field IMM8, bits 31 to 24 (30_encoding.md R111). -/
def fieldImm8 (w : Word) : Nat := (w.extractLsb' 24 8).toNat

/-- One row of the opcode map (30_encoding.md R115). -/
structure OpcodeRow where
  /-- The mask column. -/
  mask : Word
  /-- The match column. -/
  pattern : Word
  /-- The command with its operands taken from the word (30_encoding.md R114). -/
  build : Word → Instr

/-- A word is the row's command exactly when `(w AND mask) = match` (30_encoding.md R115). -/
def OpcodeRow.accepts (r : OpcodeRow) (w : Word) : Bool := w &&& r.mask == r.pattern

/-- The opcode map, row by row (30_encoding.md R115). -/
def opcodeMap : List OpcodeRow := [
  ⟨0xFFFFCFFF#32, 0x00000001#32, fun w => .prfDerive (fieldHash w)⟩,
  ⟨0xFFFF00FF#32, 0x00000002#32, fun w => .keyDerive (fieldSlot w) (fieldHash w) (fieldAlg w)⟩,
  ⟨0xFFFFF0FF#32, 0x00000003#32, fun w => .keyClear (fieldSlot w)⟩,
  ⟨0x00FFFFFF#32, 0x00000004#32, fun w => .padFooter (fieldImm8 w)⟩,
  ⟨0xFFFFFFFF#32, 0x00000005#32, fun _ => .padStrip⟩,
  ⟨0xFFFFF0FF#32, 0x00000006#32, fun w => .cbcEncrypt (fieldSlot w)⟩,
  ⟨0xFFFFF0FF#32, 0x00000007#32, fun w => .cbcDecrypt (fieldSlot w)⟩,
  ⟨0xFFFFF0FF#32, 0x00000008#32, fun w => .hmacSign (fieldSlot w)⟩,
  ⟨0xFFFFF0FF#32, 0x00000009#32, fun w => .hmacVerify (fieldSlot w)⟩,
  ⟨0xFFFFF0FF#32, 0x0000000A#32, fun w => .protectChunk (fieldSlot w)⟩,
  ⟨0xFFFFF0FF#32, 0x0000000B#32, fun w => .unprotectChunk (fieldSlot w)⟩]

/-- Which of the causes of 60_exceptions.md R331 makes a word with no row illegal. -/
def illegalReason (w : Word) : IllegalWord :=
  if fieldOpc w = 0 ∨ 0x0B < fieldOpc w then .unassignedOpcode
  else if fieldRsv w ≠ 0 then .reservedFieldSet
  else .unusedFieldSet

/-- The first half of the common decode of 60_exceptions.md R332: the row that matches, or why the word is
illegal. At most one row matches any word (30_encoding.md R115). -/
def decode (w : Word) : Except IllegalWord Instr :=
  match opcodeMap.find? (fun r => r.accepts w) with
  | some r => .ok (r.build w)
  | none => .error (illegalReason w)

/-- `OPC OR (slot << 8) OR (hash << 12) OR (alg << 14) OR (bs << 24)` (30_encoding.md R119). -/
def commandWord (opc slot hash alg bs : Nat) : Word :=
  BitVec.ofNat 32 opc ||| (BitVec.ofNat 32 slot <<< 8) ||| (BitVec.ofNat 32 hash <<< 12)
    ||| (BitVec.ofNat 32 alg <<< 14) ||| (BitVec.ofNat 32 bs <<< 24)

/-- The word a command assembles to (30_encoding.md R119). -/
def encode : Instr → Word
  | .prfDerive hash => commandWord 0x01 0 hash 0 0
  | .keyDerive slot hash alg => commandWord 0x02 slot hash alg 0
  | .keyClear slot => commandWord 0x03 slot 0 0 0
  | .padFooter bs => commandWord 0x04 0 0 0 bs
  | .padStrip => commandWord 0x05 0 0 0 0
  | .cbcEncrypt slot => commandWord 0x06 slot 0 0 0
  | .cbcDecrypt slot => commandWord 0x07 slot 0 0 0
  | .hmacSign slot => commandWord 0x08 slot 0 0 0
  | .hmacVerify slot => commandWord 0x09 slot 0 0 0
  | .protectChunk slot => commandWord 0x0A slot 0 0 0
  | .unprotectChunk slot => commandWord 0x0B slot 0 0 0

/-- The command word whose low `nbits` bits are those of `w` and whose other bits are zero. A command is one
32-bit word (30_encoding.md R110), so bits from 32 on are no part of it. -/
def tableWord (nbits w : Nat) : Word := BitVec.ofNat 32 (w % 2 ^ nbits)

/-- What the decoder reads from an instruction whose bits are `w`, numbered as spec/opcode_table.json numbers
them; none where it refuses. -/
def decodeTableWord (nbits w : Nat) : Option Instr :=
  match decode (tableWord nbits w) with
  | .ok i => some i
  | .error _ => none

end Sys2Proof
end

