-- ==== Sys2Proof/Machine/State.lean ====
section
/-! DEFINITION. The state of the machine as plain data (10_state.md R57), the reasons a step can stop, and the
state after reset (10_state.md R60). -/

namespace Sys2Proof.Machine

/-- The error codes of 60_exceptions.md R330: exactly seven, since codes 7 to 15 are never produced
(93_implementation_defined.md U3). -/
inductive ErrCode where
  /-- 0 NONE. -/
  | noError
  /-- 1 ILLEGAL. -/
  | illegal
  /-- 2 CONFIG. -/
  | config
  /-- 3 PROTOCOL. -/
  | protocol
  /-- 4 BOUNDS. -/
  | bounds
  /-- 5 NOKEY. -/
  | noKey
  /-- 6 SLOTINUSE. -/
  | slotInUse
  deriving DecidableEq, Repr

/-- One key slot (10_state.md R45). ALG and HASH are the closed selector types, whose codes are 0 and 1. -/
structure KeySlot where
  /-- VALID: the slot holds a key set. -/
  valid : Bool
  /-- ALG, 2 bits in the window (R48). -/
  alg : CipherAlg
  /-- HASH, 2 bits in the window (R48). -/
  hash : HashVariant
  /-- SKL, signingKeyLength. -/
  skl : BitVec 16
  /-- EKL, encryptingKeyLength. -/
  ekl : BitVec 8
  /-- EBS, encryptingBlockSize. -/
  ebs : BitVec 8
  /-- SGL, signatureLength. -/
  sgl : BitVec 8
  /-- SK, signingKey. -/
  sk : Bytes
  /-- EK, encryptingKey. -/
  ek : Bytes
  /-- IV, initializationVector. -/
  iv : Bytes
  deriving DecidableEq, Repr

/-- The slot with `VALID = 0`: every field 0 and every string empty (10_state.md R46). -/
def KeySlot.empty : KeySlot :=
  { valid := false, alg := .aes128cbc, hash := .sha1, skl := 0, ekl := 0, ebs := 0, sgl := 0
    sk := [], ek := [], iv := [] }

/-- The registers of 10_state.md R32, by name. -/
inductive Reg where
  | id | caps | ctrl | status | cmd
  | srcAddr | srcLen | seedAddr | seedLen | dstAddr | outLen
  | kcfg0 | kcfg1 | resultLen
  deriving DecidableEq, Repr

/-- One operation of the host (30_encoding.md R120). Offsets are relative to HOST_BASE (20_memory.md R84). -/
inductive HostOp where
  /-- `W32 <off>, <v>`. -/
  | write32 (off v : Word)
  /-- `W8 <off>, <v>`. -/
  | write8 (off : Word) (v : Byte)
  /-- `R32 <off>`; the host notes the value. -/
  | read32 (off : Word)
  /-- `R8 <off>`; the host notes the value. -/
  | read8 (off : Word)
  /-- An access of any width other than 8 and 32 bits (20_memory.md R82). -/
  | otherWidth (off : Word)
  /-- `WAIT`: repeat `R32 0x00C` until bit 0 of the value read is 0. -/
  | wait
  deriving DecidableEq, Repr

/-- Whose step is next: one of the two agents of 10_state.md R30, or the reset input being asserted
(70_reset_and_hazards.md R370). -/
inductive Turn where
  | host
  | engine
  | reset
  deriving DecidableEq, Repr

/-- The buffer memory: the written bytes with their addresses, addresses strictly rising. A byte with no cell is
unwritten (10_state.md R51). -/
abbrev Memory := List Host.Cell

/-- The machine. The fields down to `buf` are the complete architectural state of 10_state.md R57, after the
implementation parameters of 00_scope.md R11; the last four are the model's own (logs 2, 5, 6). -/
structure State where
  /-- The parameters BUF_ADDR_BITS, NKS and MAX_SKL (00_scope.md R11); no step changes them. -/
  params : Params
  /-- CTRL.IE (R35). -/
  ctrlIE : Bool
  /-- STATUS.BUSY (R36), the engine's phase (R57). -/
  busy : Bool
  /-- STATUS.DONE (R36). -/
  done : Bool
  /-- STATUS.ERR (R36). -/
  err : Bool
  /-- STATUS.AUTH (R36). -/
  auth : Bool
  /-- STATUS.WERR (R36). -/
  werr : Bool
  /-- STATUS.ERRCODE (R36). -/
  errCode : ErrCode
  /-- CMD, the last accepted word (R42). -/
  cmd : Word
  /-- SRC_ADDR (R39). -/
  srcAddr : Word
  /-- SRC_LEN (R39). -/
  srcLen : Word
  /-- SEED_ADDR (R39). -/
  seedAddr : Word
  /-- SEED_LEN (R39). -/
  seedLen : Word
  /-- DST_ADDR (R39). -/
  dstAddr : Word
  /-- OUT_LEN (R39). -/
  outLen : Word
  /-- KCFG0[15:0], SKL (R40). -/
  kcfgSkl : BitVec 16
  /-- KCFG1[7:0], EKL (R40). -/
  kcfgEkl : BitVec 8
  /-- KCFG1[15:8], EBS (R40). -/
  kcfgEbs : BitVec 8
  /-- KCFG1[23:16], SGL (R40). -/
  kcfgSgl : BitVec 8
  /-- RESULT_LEN (R41). -/
  resultLen : Word
  /-- The key slots KS[0] to KS[NKS-1] (R45). -/
  slots : List KeySlot
  /-- BUF (R50). -/
  buf : Memory
  /-- The host operations still to be issued, the next one first. -/
  hostOps : List HostOp
  /-- The values the host noted, the oldest first (30_encoding.md R120). -/
  reads : List Word
  /-- The order of the next turns; when it is empty the engine moves while it is busy, else the host. -/
  turns : List Turn
  /-- The counter the next free value is drawn with. -/
  draw : Nat
  deriving DecidableEq, Repr

/-- Why the machine stops with a fault: the host's access drew a bus error (20_memory.md R85,
93_implementation_defined.md U4). The block's own state is unchanged by such an access. Each constructor is
raised by the host's bus access and nothing else, and each is safe: the spec gives such a run no end state
(60_exceptions.md R347). -/
inductive Fault where
  /-- An access of a width other than 8 and 32 bits (20_memory.md R82). Safe. -/
  | busErrorWidth
  /-- A 32-bit access at an offset that is no multiple of 4 (20_memory.md R82). Safe. -/
  | busErrorMisaligned
  /-- An 8-bit access to the register page (20_memory.md R82). Safe. -/
  | busErrorRegisterByte
  /-- An access to an offset the map leaves unmapped (20_memory.md R84). Safe. -/
  | busErrorUnmapped
  deriving DecidableEq, Repr

/-- Why an instruction has no meaning. No arm of exec answers with it: every command has its meaning. -/
inductive Refusal where
  /-- The instruction is not modelled; raised by no instruction of this model. Safe. -/
  | notModelled (mnemonic : String)
  deriving DecidableEq, Repr

/-- The reset state of 10_state.md R60 for given parameters: registers as in the reset column of R32, every slot
invalid and zeroed, every `BUF` byte unwritten. The host's list, its notes, the schedule and the draw counter,
which are the model's own, start empty and 0 (log 6). -/
def State.resetWith (p : Params) : State :=
  { params := p
    ctrlIE := false, busy := false, done := false, err := false, auth := false, werr := false
    errCode := .noError, cmd := 0
    srcAddr := 0, srcLen := 0, seedAddr := 0, seedLen := 0, dstAddr := 0, outLen := 0
    kcfgSkl := 0, kcfgEkl := 0, kcfgEbs := 0, kcfgSgl := 0, resultLen := 0
    slots := List.replicate p.nks KeySlot.empty
    buf := []
    hostOps := [], reads := [], turns := [], draw := 0 }

/-- The machine right after reset (70_reset_and_hazards.md R370) with the default parameters of 00_scope.md R11. -/
def State.reset : State := State.resetWith Params.default

end Sys2Proof.Machine
end

