-- ==== Sys2Proof/Machine/Ops.lean ====
section
/-! DEFINITION. The named operations over memory, slots and command completion (20_memory.md, 60_exceptions.md). -/

namespace Sys2Proof.Machine

/-! ### Memory -/

/-- The canonical form of a memory: addresses strictly rising. The second half of canonicity, that no cell equals
what an unlisted address reads as, holds of every list, since an unlisted address holds no value. -/
def Memory.wf : Memory → Bool
  | [] => true
  | [_] => true
  | c :: d :: m => decide (c.1 < d.1) && Memory.wf (d :: m)

/-- Every cell lies inside a buffer of `n` bytes (10_state.md R50). -/
def Memory.within (n : Nat) (m : Memory) : Bool := m.all fun c => decide (c.1 < n)

/-- The byte written at an address, none for an unwritten one (10_state.md R51): the one definition of what an
unlisted address reads as. -/
def Memory.read : Memory → Nat → Option Byte
  | [], _ => none
  | c :: m, a => if c.1 = a then some c.2 else Memory.read m a

/-- Write one byte and so mark it written (20_memory.md R93). -/
def Memory.write : Memory → Nat → Byte → Memory
  | [], a, b => [(a, b)]
  | c :: m, a, b =>
    if a < c.1 then (a, b) :: c :: m
    else if a = c.1 then (a, b) :: m
    else c :: Memory.write m a b

/-- `MemWrite(a, |v|, v)`: string index `i` goes to address `a + i` (20_memory.md R81, R93). -/
def Memory.writeBytes : Memory → Nat → Bytes → Memory
  | m, _, [] => m
  | m, a, b :: v => Memory.writeBytes (Memory.write m a b) (a + 1) v

/-- Which read of a step a free value is drawn for: the first input of a command (or a host read), or its second. -/
def firstPort : Nat := 0

/-- See `firstPort`. -/
def secondPort : Nat := 1

/-- A `BUF` byte as it is read: its written value, or the free value of an unwritten byte
(93_implementation_defined.md U1, log 3). -/
def State.byteAt (s : State) (port a : Nat) : Byte :=
  (s.buf.read a).getD (Config.unwrittenByte s.draw port a)

/-- The `n` bytes from address `a` on, each as it is read (20_memory.md R81). -/
def State.bytesAt (s : State) (port a n : Nat) : Bytes :=
  (List.range n).map fun i => s.byteAt port (a + i)

/-! ### What a command rule may do -/

/-- Raise the error when the condition holds (00_scope.md R17). -/
def raiseIf (c : Bool) (e : ErrCode) : Except ErrCode Unit :=
  if c then .error e else .ok ()

/-- `MemRead(a, n)` (20_memory.md R90). -/
def State.memRead (s : State) (port a n : Nat) : Except ErrCode Bytes :=
  if a + n > s.params.bufSize then .error .bounds else .ok (s.bytesAt port a n)

/-- `CheckOut(a, n)` (20_memory.md R91). -/
def State.checkOut (s : State) (a n : Nat) : Except ErrCode Unit :=
  raiseIf (decide (a + n > s.params.bufSize)) .bounds

/-- Key slot `k`; a number with no slot reads as the empty slot (no command reaches one, R332). -/
def State.slot (s : State) (k : Nat) : KeySlot := s.slots.getD k KeySlot.empty

/-- What a command that ends without error writes (60_exceptions.md R336). -/
structure Effect where
  /-- The address of the command's `MemWrite`. -/
  dst : Nat := 0
  /-- The bytes of the command's `MemWrite`, empty where it has none. -/
  out : Bytes := []
  /-- The slot the command writes, where it writes one. -/
  slotWrite : Option (Nat × KeySlot) := none
  /-- RESULT_LEN. -/
  resultLen : Nat
  /-- STATUS.AUTH. -/
  auth : Bool := false
  deriving DecidableEq, Repr

/-- The slot file after a slot write. -/
def writeSlot (slots : List KeySlot) : Option (Nat × KeySlot) → List KeySlot
  | none => slots
  | some w => slots.set w.1 w.2

/-! ### Accept, completion, reset -/

/-- Accept of a command word (10_state.md R42). -/
def State.accept (s : State) (v : Word) : State :=
  { s with
    cmd := v, busy := true, done := false, err := false, errCode := .noError, auth := false, resultLen := 0 }

/-- Taking a command error: the ONE way a command ends with an error (60_exceptions.md R334, R336). No buffer byte
and no slot changes. -/
def State.completeError (s : State) (c : ErrCode) : State :=
  { s with
    err := true, errCode := c, auth := false, resultLen := 0, done := true, busy := false, draw := s.draw + 1 }

/-- Completion without error (60_exceptions.md R336): all writes of the command at once (20_memory.md R102). -/
def State.completeOk (s : State) (e : Effect) : State :=
  { s with
    buf := s.buf.writeBytes e.dst e.out
    slots := writeSlot s.slots e.slotWrite
    err := false, errCode := .noError, auth := e.auth
    resultLen := BitVec.ofNat 32 e.resultLen
    done := true, busy := false, draw := s.draw + 1 }

/-- The completion step on the outcome of a command's rule (60_exceptions.md R336). -/
def State.complete (s : State) : Except ErrCode Effect → State
  | .error c => s.completeError c
  | .ok e => s.completeOk e

/-- The reset input is asserted (70_reset_and_hazards.md R370): the block is in its reset state and a command in
progress is abandoned. The host's list and notes, the schedule and the draw counter are no part of the block. -/
def State.assertReset (s : State) : State :=
  { State.resetWith s.params with
    hostOps := s.hostOps, reads := s.reads, turns := s.turns, draw := s.draw }

end Sys2Proof.Machine
end

