-- ==== Sys2Proof/Machine/Flags.lean ====
section
/-! DEFINITION. The STATUS register as the host sees and acknowledges it (10_state.md R36, R37, R38) and the
interrupt output (60_exceptions.md R345). -/

namespace Sys2Proof.Machine

/-- The number of an error code (60_exceptions.md R330). -/
def ErrCode.code : ErrCode → BitVec 4
  | .noError => 0
  | .illegal => 1
  | .config => 2
  | .protocol => 3
  | .bounds => 4
  | .noKey => 5
  | .slotInUse => 6

/-- One bit of a register as the number 0 or 1. -/
def bit (b : Bool) : BitVec 1 := BitVec.ofBool b

/-- STATUS as it is read (10_state.md R32): bit 0 BUSY, 1 DONE, 2 ERR, 3 AUTH, 4 WERR, 11 to 8 ERRCODE, all other
bits 0. -/
def State.statusWord (s : State) : Word :=
  0#20 ++ s.errCode.code ++ 0#3 ++ bit s.werr ++ bit s.auth ++ bit s.err ++ bit s.done ++ bit s.busy

/-- A host write to STATUS (10_state.md R37): bit 1 clears DONE, bit 2 clears ERR and ERRCODE, bit 4 clears WERR. It
acts also while the engine is busy. This is the host's acknowledgement, which stands where other machines have a
return from exception (60_exceptions.md R338). -/
def State.ackStatus (s : State) (v : Word) : State :=
  { s with
    done := s.done && !v.getLsbD 1
    err := s.err && !v.getLsbD 2
    errCode := if v.getLsbD 2 then .noError else s.errCode
    werr := s.werr && !v.getLsbD 4 }

/-- A host write dropped because the engine is busy sets WERR and changes nothing else (10_state.md R38). -/
def State.dropWrite (s : State) : State := { s with werr := true }

/-- The interrupt output: `IRQ = CTRL.IE AND STATUS.DONE` (60_exceptions.md R345). -/
def State.irq (s : State) : Bool := s.ctrlIE && s.done

end Sys2Proof.Machine
end

