-- ==== Sys2Proof/Machine/Operands.lean ====
section
/-! DEFINITION. How a command's operands are taken: the selector checks of the common decode
(60_exceptions.md R332), the key slot of a keyed command, the byte-string operands and the declared lengths
(30_encoding.md R114, R116). -/

namespace Sys2Proof.Machine

/-- `hlen(h)`, the output length of a hash (00_scope.md R16). -/
def hlen : HashVariant → Nat
  | .sha1 => 20
  | .sha256 => 32

/-- `klen(alg)`, the key length of an algorithm (00_scope.md R16). -/
def klen : CipherAlg → Nat
  | .aes128cbc => 16
  | .aes256cbc => 32

/-- A used HASH field: 0 is SHA1, 1 is SHA256, any other value is CONFIG (30_encoding.md R111, 60_exceptions.md R332). -/
def selectHash : Nat → Except ErrCode HashVariant
  | 0 => .ok .sha1
  | 1 => .ok .sha256
  | _ => .error .config

/-- A used ALG field: 0 is aes-128-cbc, 1 is aes-256-cbc, any other value is CONFIG (30_encoding.md R111,
60_exceptions.md R332). -/
def selectAlg : Nat → Except ErrCode CipherAlg
  | 0 => .ok .aes128cbc
  | 1 => .ok .aes256cbc
  | _ => .error .config

/-- A used SLOT field: `SLOT >= NKS` is CONFIG (60_exceptions.md R332). -/
def State.selectSlot (s : State) (k : Nat) : Except ErrCode KeySlot :=
  if k ≥ s.params.nks then .error .config else .ok (s.slot k)

/-- The slot of a keyed command: in range (R332), then valid, else NOKEY (60_exceptions.md R330, R333). -/
def State.keyedSlot (s : State) (k : Nat) : Except ErrCode KeySlot := do
  let ks ← s.selectSlot k
  raiseIf (!ks.valid) .noKey
  return ks

/-- The first input, `MemRead(SRC_ADDR, SRC_LEN)` (30_encoding.md R116). -/
def State.sourceInput (s : State) : Except ErrCode Bytes :=
  s.memRead firstPort s.srcAddr.toNat s.srcLen.toNat

/-- The second input, `MemRead(SEED_ADDR, SEED_LEN)` (30_encoding.md R116). -/
def State.seedInput (s : State) : Except ErrCode Bytes :=
  s.memRead secondPort s.seedAddr.toNat s.seedLen.toNat

/-- The bytes of the first input where the region lies inside `BUF`. -/
def State.sourceBytes (s : State) : Bytes := s.bytesAt firstPort s.srcAddr.toNat s.srcLen.toNat

/-- The bytes of the second input where the region lies inside `BUF`. -/
def State.seedBytes (s : State) : Bytes := s.bytesAt secondPort s.seedAddr.toNat s.seedLen.toNat

end Sys2Proof.Machine
end

