-- ==== Sys2Proof/Machine/Bus.lean ====
section
/-! DEFINITION. The host bus: the address map and the accesses of the host (20_memory.md R80 to R85, 10_state.md R32
to R48). Offsets are relative to HOST_BASE (20_memory.md R84, log 12). -/

namespace Sys2Proof.Machine

/-! ### Byte order and the address map -/

/-- Byte `i` of a word, byte 0 in bits 7 to 0 (20_memory.md R80). -/
def wordByte (w : Word) (i : Nat) : Byte := w.extractLsb' (8 * i) 8

/-- The four bytes of a word, lowest address first (20_memory.md R80). -/
def leBytes (w : Word) : Bytes := [wordByte w 0, wordByte w 1, wordByte w 2, wordByte w 3]

/-- The word of four bytes, byte 0 at the lowest address (20_memory.md R80). -/
def leWord (b0 b1 b2 b3 : Byte) : Word := b3 ++ b2 ++ b1 ++ b0

/-- Where an offset of the address map lies (20_memory.md R84). -/
inductive Place where
  /-- In the register page, at this offset. -/
  | register (off : Nat)
  /-- In the key-slot window, at this distance from 0x1000. -/
  | window (off : Nat)
  /-- In `BUF`, at this buffer address. -/
  | buffer (a : Nat)
  /-- Nowhere. -/
  | unmapped
  deriving DecidableEq, Repr

/-- The address map (20_memory.md R84). -/
def locate (p : Params) (off : Nat) : Place :=
  if off < 0x1000 then .register off
  else if off < 0x5000 then .window (off - 0x1000)
  else if off < 0x10000 then .unmapped
  else if off < 0x10000 + p.bufSize then .buffer (off - 0x10000)
  else .unmapped

/-- The offset of a register (10_state.md R32). -/
def Reg.offset : Reg → Nat
  | .id => 0x000
  | .caps => 0x004
  | .ctrl => 0x008
  | .status => 0x00C
  | .cmd => 0x010
  | .srcAddr => 0x014
  | .srcLen => 0x018
  | .seedAddr => 0x01C
  | .seedLen => 0x020
  | .dstAddr => 0x024
  | .outLen => 0x028
  | .kcfg0 => 0x02C
  | .kcfg1 => 0x030
  | .resultLen => 0x034

/-- The registers in the order of the table of 10_state.md R32. -/
def Reg.all : List Reg :=
  [.id, .caps, .ctrl, .status, .cmd, .srcAddr, .srcLen, .seedAddr, .seedLen, .dstAddr, .outLen, .kcfg0, .kcfg1,
    .resultLen]

/-- The register at an offset of the register page, none at an offset R32 does not list. -/
def Reg.atOffset (off : Nat) : Option Reg := Reg.all.find? fun r => decide (r.offset = off)

/-! ### Registers -/

/-- ID (10_state.md R33). -/
def idWord : Word := 0x50524631#32

/-- CAPS: `zext_32(BUF_ADDR_BITS) | (NKS << 8) | (MAX_SKL << 16)` (10_state.md R34). -/
def capsWord (p : Params) : Word :=
  BitVec.ofNat 32 p.bufAddrBits ||| (BitVec.ofNat 32 p.nks <<< 8) ||| (BitVec.ofNat 32 p.maxSkl <<< 16)

/-- The value a host read of a register returns (10_state.md R32 to R43): the same whether the engine is busy or
not, since accept has cleared what R43 lists. -/
def State.readReg (s : State) : Reg → Word
  | .id => idWord
  | .caps => capsWord s.params
  | .ctrl => 0#31 ++ bit s.ctrlIE
  | .status => s.statusWord
  | .cmd => s.cmd
  | .srcAddr => s.srcAddr
  | .srcLen => s.srcLen
  | .seedAddr => s.seedAddr
  | .seedLen => s.seedLen
  | .dstAddr => s.dstAddr
  | .outLen => s.outLen
  | .kcfg0 => 0#16 ++ s.kcfgSkl
  | .kcfg1 => 0#8 ++ s.kcfgSgl ++ s.kcfgEbs ++ s.kcfgEkl
  | .resultLen => s.resultLen

/-- A host write that takes effect only while the engine is idle (10_state.md R38). -/
def State.unlessBusy (s : State) (t : State) : State := if s.busy then s.dropWrite else t

/-- A host 32-bit write to a register (10_state.md R33 to R42). -/
def State.writeReg (s : State) (v : Word) : Reg → State
  | .id => s
  | .caps => s
  | .ctrl => { s with ctrlIE := v.getLsbD 0 }
  | .status => s.ackStatus v
  | .cmd => s.unlessBusy (s.accept v)
  | .srcAddr => s.unlessBusy { s with srcAddr := v }
  | .srcLen => s.unlessBusy { s with srcLen := v }
  | .seedAddr => s.unlessBusy { s with seedAddr := v }
  | .seedLen => s.unlessBusy { s with seedLen := v }
  | .dstAddr => s.unlessBusy { s with dstAddr := v }
  | .outLen => s.unlessBusy { s with outLen := v }
  | .kcfg0 => s.unlessBusy { s with kcfgSkl := v.extractLsb' 0 16 }
  | .kcfg1 =>
    s.unlessBusy
      { s with kcfgEkl := v.extractLsb' 0 8, kcfgEbs := v.extractLsb' 8 8, kcfgSgl := v.extractLsb' 16 8 }
  | .resultLen => s

/-! ### The key-slot window -/

/-- ALG as the window shows it (10_state.md R45, R48). -/
def algCode : CipherAlg → BitVec 2
  | .aes128cbc => 0
  | .aes256cbc => 1

/-- HASH as the window shows it (10_state.md R45, R48). -/
def hashCode : HashVariant → BitVec 2
  | .sha1 => 0
  | .sha256 => 1

/-- KMETA: bit 0 VALID, bits 9 to 8 ALG, bits 13 to 12 HASH (10_state.md R48). -/
def KeySlot.kmeta (ks : KeySlot) : Word :=
  0#18 ++ hashCode ks.hash ++ 0#2 ++ algCode ks.alg ++ 0#7 ++ bit ks.valid

/-- KSKL: bits 15 to 0 SKL (10_state.md R48). -/
def KeySlot.kskl (ks : KeySlot) : Word := 0#16 ++ ks.skl

/-- KLEN: bits 7 to 0 EKL, 15 to 8 EBS, 23 to 16 SGL (10_state.md R48). -/
def KeySlot.klenWord (ks : KeySlot) : Word := 0#8 ++ ks.sgl ++ ks.ebs ++ ks.ekl

/-- Byte `i` of a key string of declared length `n`; a byte at an index from `n` on reads 0 (10_state.md R48). -/
def keyByte (key : Bytes) (n i : Nat) : Byte := if i < n then key.getD i 0 else 0

/-- The byte at an offset of one slot's part of the window (10_state.md R48). -/
def KeySlot.windowByte (ks : KeySlot) (j : Nat) : Byte :=
  if j < 0x004 then wordByte ks.kmeta j
  else if j < 0x008 then wordByte ks.kskl (j - 0x004)
  else if j < 0x00C then wordByte ks.klenWord (j - 0x008)
  else if j < 0x010 then 0
  else if j < 0x020 then keyByte ks.iv ks.ebs.toNat (j - 0x010)
  else if j < 0x040 then keyByte ks.ek ks.ekl.toNat (j - 0x020)
  else keyByte ks.sk ks.skl.toNat (j - 0x040)

/-- The byte at a distance from 0x1000 of the window: slot `k` starts at `0x400*k`, and the part of a slot
`k >= NKS` reads as zero (10_state.md R48). -/
def State.windowByte (s : State) (off : Nat) : Byte :=
  if off / 0x400 < s.params.nks then (s.slot (off / 0x400)).windowByte (off % 0x400) else 0

/-! ### Accesses -/

/-- One byte of `BUF` as the host reads it: while the engine is busy a free value (10_state.md R43,
93_implementation_defined.md U2, log 4). -/
def State.hostBufByte (s : State) (a : Nat) : Byte :=
  if s.busy then Config.busyReadByte s.draw (0x10000 + a) else s.byteAt firstPort a

/-- One byte of the key-slot window as the host reads it: while the engine is busy a free value (10_state.md R43,
93_implementation_defined.md U2, log 4). -/
def State.hostWindowByte (s : State) (off : Nat) : Byte :=
  if s.busy then Config.busyReadByte s.draw (0x1000 + off) else s.windowByte off

/-- Four bytes read at once (20_memory.md R83). -/
def fourBytes (f : Nat → Byte) (a : Nat) : Word := leWord (f a) (f (a + 1)) (f (a + 2)) (f (a + 3))

/-- The host notes the value it read (30_encoding.md R120). The block is unchanged (20_memory.md R83). -/
def State.noteRead (s : State) (v : Word) : State :=
  { s with reads := s.reads ++ [v], draw := s.draw + 1 }

/-- A host write of bytes to `BUF` (20_memory.md R83), dropped while the engine is busy (10_state.md R38). -/
def State.hostWriteBuf (s : State) (a : Nat) (v : Bytes) : State :=
  s.unlessBusy { s with buf := s.buf.writeBytes a v }

/-- The value of a host 32-bit read, or the bus error it draws (20_memory.md R82 to R85). -/
def State.load32 (s : State) (off : Nat) : Except Fault Word :=
  if off % 4 ≠ 0 then .error .busErrorMisaligned
  else match locate s.params off with
    | .register o =>
      match Reg.atOffset o with
      | some r => .ok (s.readReg r)
      | none => .ok 0
    | .window o => .ok (fourBytes s.hostWindowByte o)
    | .buffer a => .ok (fourBytes s.hostBufByte a)
    | .unmapped => .error .busErrorUnmapped

/-- The value of a host 8-bit read, or the bus error it draws (20_memory.md R82 to R85). -/
def State.load8 (s : State) (off : Nat) : Except Fault Byte :=
  match locate s.params off with
  | .register _ => .error .busErrorRegisterByte
  | .window o => .ok (s.hostWindowByte o)
  | .buffer a => .ok (s.hostBufByte a)
  | .unmapped => .error .busErrorUnmapped

/-- A host 32-bit write, or the bus error it draws (20_memory.md R82 to R85). Writes to offsets of the register page
that R32 does not list, and to the key-slot window, are ignored (10_state.md R38, R48). -/
def State.store32 (s : State) (off : Nat) (v : Word) : Except Fault State :=
  if off % 4 ≠ 0 then .error .busErrorMisaligned
  else match locate s.params off with
    | .register o =>
      match Reg.atOffset o with
      | some r => .ok (s.writeReg v r)
      | none => .ok s
    | .window _ => .ok s
    | .buffer a => .ok (s.hostWriteBuf a (leBytes v))
    | .unmapped => .error .busErrorUnmapped

/-- A host 8-bit write, or the bus error it draws (20_memory.md R82 to R85). -/
def State.store8 (s : State) (off : Nat) (v : Byte) : Except Fault State :=
  match locate s.params off with
  | .register _ => .error .busErrorRegisterByte
  | .window _ => .ok s
  | .buffer a => .ok (s.hostWriteBuf a [v])
  | .unmapped => .error .busErrorUnmapped

/-- A state reached or a bus error, as an outcome of a step (20_memory.md R85, 93_implementation_defined.md U4). -/
def outcomeOf : Except Fault State → Host.Outcome State Fault Refusal
  | .ok t => .next t
  | .error f => .fault f

/-- One operation of the host, already taken from its list, so that `rest` is what remains after it
(30_encoding.md R120). `WAIT` stays in the list while the polled STATUS shows BUSY. -/
def State.perform (s : State) (op : HostOp) (rest : List HostOp) : Host.Outcome State Fault Refusal :=
  let t := { s with hostOps := rest }
  match op with
  | .write32 off v => outcomeOf (t.store32 off.toNat v)
  | .write8 off v => outcomeOf (t.store8 off.toNat v)
  | .read32 off => outcomeOf ((t.load32 off.toNat).map t.noteRead)
  | .read8 off => outcomeOf ((t.load8 off.toNat).map fun b => t.noteRead (b.setWidth 32))
  | .otherWidth _ => .fault .busErrorWidth
  | .wait => .next (if s.statusWord.getLsbD 0 then s else t)

end Sys2Proof.Machine
end

