-- ==== Sys2Proof/Machine/Sha.lean ====
section
/-! DEFINITION. SHA-1 and SHA-256 (40_primitives.md R140 to R150). -/

namespace Sys2Proof.Machine

/-! ### Words and message layout -/

/-- `ROTL^n(x)` for `0 < n < 32` (40_primitives.md R140). -/
def rotl (n : Nat) (x : Word) : Word := (x <<< n) ||| (x >>> (32 - n))

/-- `ROTR^n(x)` for `0 < n < 32` (40_primitives.md R140). -/
def rotr (n : Nat) (x : Word) : Word := (x >>> n) ||| (x <<< (32 - n))

/-- A word as 4 big-endian bytes (40_primitives.md R141). -/
def wordBytes (w : Word) : Bytes :=
  [w.extractLsb' 24 8, w.extractLsb' 16 8, w.extractLsb' 8 8, w.extractLsb' 0 8]

/-- Word `j` of a block: bytes `4j` to `4j+3`, byte `4j` in bits 31 to 24 (40_primitives.md R141). -/
def blockWord (blk : Bytes) (j : Nat) : Word :=
  blk.getD (4 * j) 0 ++ blk.getD (4 * j + 1) 0 ++ blk.getD (4 * j + 2) 0 ++ blk.getD (4 * j + 3) 0

/-- The sixteen words `W[0..15]` of a block (40_primitives.md R141). -/
def blockWords (blk : Bytes) : List Word := (List.range 16).map (blockWord blk)

/-- The message length in bits as a 64-bit big-endian integer (40_primitives.md R141). -/
def bitLength (n : Nat) : Bytes :=
  (List.range 8).map fun i => BitVec.ofNat 8 ((8 * n) >>> (8 * (7 - i)))

/-- How many zero bytes bring `n + 1` bytes to a length of 56 modulo 64 (40_primitives.md R141). -/
def zeroFill (n : Nat) : Nat := (119 - n % 64) % 64

/-- The padded message: 0x80, zero bytes, the bit length (40_primitives.md R141). -/
def padMessage (m : Bytes) : Bytes :=
  m ++ 0x80#8 :: (List.replicate (zeroFill m.length) 0#8 ++ bitLength m.length)

/-- The first `n` pieces of `k` bytes each. -/
def pieces (k : Nat) : Nat → Bytes → List Bytes
  | 0, _ => []
  | n + 1, b => b.take k :: pieces k n (b.drop k)

/-- The 64-byte blocks of a padded message (40_primitives.md R141). -/
def messageBlocks (m : Bytes) : List Bytes :=
  pieces 64 ((padMessage m).length / 64) (padMessage m)

/-! ### SHA-1 -/

/-- The hash value `H[0..4]` of SHA-1. -/
structure Sha1State where
  (a b c d e : Word)
  deriving DecidableEq, Repr

/-- The initial hash value (40_primitives.md R142). -/
def sha1Init : Sha1State :=
  ⟨0x67452301#32, 0xEFCDAB89#32, 0x98BADCFE#32, 0x10325476#32, 0xC3D2E1F0#32⟩

/-- `n` further words of the message schedule (40_primitives.md R143). The words stand newest first, so that
`W[t-3]`, `W[t-8]`, `W[t-14]` and `W[t-16]` are the entries 2, 7, 13 and 15. -/
def sha1Extend : Nat → List Word → List Word
  | 0, w => w
  | n + 1, w =>
    sha1Extend n (rotl 1 (w.getD 2 0 ^^^ w.getD 7 0 ^^^ w.getD 13 0 ^^^ w.getD 15 0) :: w)

/-- The schedule `W[0..79]` of a block (40_primitives.md R143). -/
def sha1Schedule (blk : Bytes) : List Word := (sha1Extend 64 (blockWords blk).reverse).reverse

/-- The round function `f_t` (40_primitives.md R144). -/
def sha1F (t : Nat) (b c d : Word) : Word :=
  if t < 20 then (b &&& c) ^^^ (~~~b &&& d)
  else if t < 40 then b ^^^ c ^^^ d
  else if t < 60 then (b &&& c) ^^^ (b &&& d) ^^^ (c &&& d)
  else b ^^^ c ^^^ d

/-- The round constant `K_t` (40_primitives.md R144). -/
def sha1K (t : Nat) : Word :=
  if t < 20 then 0x5A827999#32
  else if t < 40 then 0x6ED9EBA1#32
  else if t < 60 then 0x8F1BBCDC#32
  else 0xCA62C1D6#32

/-- One round (40_primitives.md R145). -/
def sha1Round (t : Nat) (w : Word) (h : Sha1State) : Sha1State :=
  ⟨rotl 5 h.a + sha1F t h.b h.c h.d + h.e + sha1K t + w, h.a, rotl 30 h.b, h.c, h.d⟩

/-- The rounds from `t` on, one for each word of the schedule (40_primitives.md R145). -/
def sha1Rounds : Nat → List Word → Sha1State → Sha1State
  | _, [], h => h
  | t, w :: ws, h => sha1Rounds (t + 1) ws (sha1Round t w h)

/-- The compression of one block (40_primitives.md R145). -/
def sha1Compress (h : Sha1State) (blk : Bytes) : Sha1State :=
  let r := sha1Rounds 0 (sha1Schedule blk) h
  ⟨h.a + r.a, h.b + r.b, h.c + r.c, h.d + r.d, h.e + r.e⟩

/-- The digest bytes of a hash value (40_primitives.md R141). -/
def Sha1State.digest (h : Sha1State) : Bytes :=
  wordBytes h.a ++ wordBytes h.b ++ wordBytes h.c ++ wordBytes h.d ++ wordBytes h.e

/-- `SHA1(M)` (40_primitives.md R145). -/
def sha1 (m : Bytes) : Bytes := ((messageBlocks m).foldl sha1Compress sha1Init).digest

/-! ### SHA-256 -/

/-- The hash value `H[0..7]` of SHA-256. -/
structure Sha256State where
  (a b c d e f g h : Word)
  deriving DecidableEq, Repr

/-- The initial hash value (40_primitives.md R146). -/
def sha256Init : Sha256State :=
  ⟨0x6a09e667#32, 0xbb67ae85#32, 0x3c6ef372#32, 0xa54ff53a#32,
   0x510e527f#32, 0x9b05688c#32, 0x1f83d9ab#32, 0x5be0cd19#32⟩

/-- The constants `K[0..63]`, eight in a row of the spec's table (40_primitives.md R147). -/
def sha256K : List Word := [
  0x428a2f98#32, 0x71374491#32, 0xb5c0fbcf#32, 0xe9b5dba5#32, 0x3956c25b#32, 0x59f111f1#32, 0x923f82a4#32, 0xab1c5ed5#32,
  0xd807aa98#32, 0x12835b01#32, 0x243185be#32, 0x550c7dc3#32, 0x72be5d74#32, 0x80deb1fe#32, 0x9bdc06a7#32, 0xc19bf174#32,
  0xe49b69c1#32, 0xefbe4786#32, 0x0fc19dc6#32, 0x240ca1cc#32, 0x2de92c6f#32, 0x4a7484aa#32, 0x5cb0a9dc#32, 0x76f988da#32,
  0x983e5152#32, 0xa831c66d#32, 0xb00327c8#32, 0xbf597fc7#32, 0xc6e00bf3#32, 0xd5a79147#32, 0x06ca6351#32, 0x14292967#32,
  0x27b70a85#32, 0x2e1b2138#32, 0x4d2c6dfc#32, 0x53380d13#32, 0x650a7354#32, 0x766a0abb#32, 0x81c2c92e#32, 0x92722c85#32,
  0xa2bfe8a1#32, 0xa81a664b#32, 0xc24b8b70#32, 0xc76c51a3#32, 0xd192e819#32, 0xd6990624#32, 0xf40e3585#32, 0x106aa070#32,
  0x19a4c116#32, 0x1e376c08#32, 0x2748774c#32, 0x34b0bcb5#32, 0x391c0cb3#32, 0x4ed8aa4a#32, 0x5b9cca4f#32, 0x682e6ff3#32,
  0x748f82ee#32, 0x78a5636f#32, 0x84c87814#32, 0x8cc70208#32, 0x90befffa#32, 0xa4506ceb#32, 0xbef9a3f7#32, 0xc67178f2#32]

/-- `Ch` (40_primitives.md R148). -/
def sha256Ch (x y z : Word) : Word := (x &&& y) ^^^ (~~~x &&& z)

/-- `Maj` (40_primitives.md R148). -/
def sha256Maj (x y z : Word) : Word := (x &&& y) ^^^ (x &&& z) ^^^ (y &&& z)

/-- `S0` (40_primitives.md R148). -/
def sha256BigS0 (x : Word) : Word := rotr 2 x ^^^ rotr 13 x ^^^ rotr 22 x

/-- `S1` (40_primitives.md R148). -/
def sha256BigS1 (x : Word) : Word := rotr 6 x ^^^ rotr 11 x ^^^ rotr 25 x

/-- `s0` (40_primitives.md R148). -/
def sha256SmallS0 (x : Word) : Word := rotr 7 x ^^^ rotr 18 x ^^^ (x >>> 3)

/-- `s1` (40_primitives.md R148). -/
def sha256SmallS1 (x : Word) : Word := rotr 17 x ^^^ rotr 19 x ^^^ (x >>> 10)

/-- `n` further words of the message schedule (40_primitives.md R149). The words stand newest first, so that
`W[t-2]`, `W[t-7]`, `W[t-15]` and `W[t-16]` are the entries 1, 6, 14 and 15. -/
def sha256Extend : Nat → List Word → List Word
  | 0, w => w
  | n + 1, w =>
    sha256Extend n
      ((sha256SmallS1 (w.getD 1 0) + w.getD 6 0 + sha256SmallS0 (w.getD 14 0) + w.getD 15 0) :: w)

/-- The schedule `W[0..63]` of a block (40_primitives.md R149). -/
def sha256Schedule (blk : Bytes) : List Word := (sha256Extend 48 (blockWords blk).reverse).reverse

/-- One round with its constant and its word (40_primitives.md R149). -/
def sha256Round (s : Sha256State) (k w : Word) : Sha256State :=
  let t1 := s.h + sha256BigS1 s.e + sha256Ch s.e s.f s.g + k + w
  let t2 := sha256BigS0 s.a + sha256Maj s.a s.b s.c
  ⟨t1 + t2, s.a, s.b, s.c, s.d + t1, s.e, s.f, s.g⟩

/-- The rounds, one for each constant and word (40_primitives.md R149). -/
def sha256Rounds : List Word → List Word → Sha256State → Sha256State
  | k :: ks, w :: ws, s => sha256Rounds ks ws (sha256Round s k w)
  | _, _, s => s

/-- The compression of one block (40_primitives.md R149). -/
def sha256Compress (s : Sha256State) (blk : Bytes) : Sha256State :=
  let r := sha256Rounds sha256K (sha256Schedule blk) s
  ⟨s.a + r.a, s.b + r.b, s.c + r.c, s.d + r.d, s.e + r.e, s.f + r.f, s.g + r.g, s.h + r.h⟩

/-- The digest bytes of a hash value (40_primitives.md R141). -/
def Sha256State.digest (s : Sha256State) : Bytes :=
  wordBytes s.a ++ wordBytes s.b ++ wordBytes s.c ++ wordBytes s.d
    ++ wordBytes s.e ++ wordBytes s.f ++ wordBytes s.g ++ wordBytes s.h

/-- `SHA256(M)` (40_primitives.md R149). -/
def sha256 (m : Bytes) : Bytes := ((messageBlocks m).foldl sha256Compress sha256Init).digest

/-- The hash a selector names. -/
def hashBytes : HashVariant → Bytes → Bytes
  | .sha1, m => sha1 m
  | .sha256, m => sha256 m

end Sys2Proof.Machine
end

