-- ==== Sys2Proof/Machine/Hmac.lean ====
section
/-! DEFINITION. HMAC (40_primitives.md R153 to R155). -/

namespace Sys2Proof.Machine

/-- Bytewise XOR of two strings of one length (40_primitives.md R153). -/
def xorBytes (x y : Bytes) : Bytes := List.zipWith (· ^^^ ·) x y

/-- `bytes(v, n)` (00_scope.md R13). -/
def constBytes (v : Byte) (n : Nat) : Bytes := List.replicate n v

/-- The HMAC block length `B` of both hashes (40_primitives.md R153). -/
def hmacBlock : Nat := 64

/-- `K0`: a key longer than the block is hashed first, then zero bytes fill the block (40_primitives.md R153, R155). -/
def hmacKey (h : HashVariant) (key : Bytes) : Bytes :=
  let k := if key.length > hmacBlock then hashBytes h key else key
  k ++ constBytes 0x00 (hmacBlock - k.length)

/-- `HMAC_h(K, m)`, the key first (40_primitives.md R153, R154). -/
def hmac (h : HashVariant) (key m : Bytes) : Bytes :=
  let k0 := hmacKey h key
  hashBytes h (xorBytes k0 (constBytes 0x5C hmacBlock)
    ++ hashBytes h (xorBytes k0 (constBytes 0x36 hmacBlock) ++ m))

end Sys2Proof.Machine
end

