-- ==== Sys2Proof/Machine/Aes.lean ====
section
/-! DEFINITION. The AES block cipher (40_primitives.md R156 to R166). A state is the 16 bytes of a block in the
order of R158: entry `r + 4c` is row `r`, column `c`. -/

namespace Sys2Proof.Machine

/-! ### Byte arithmetic -/

/-- `xtime` (40_primitives.md R157). -/
def xtime (a : Byte) : Byte := if 0x80#8 ≤ a then (a <<< 1) ^^^ 0x1B#8 else a <<< 1

/-- The product of the low `n` bits of `a` with `b`, from the lowest bit up (40_primitives.md R157). -/
def gfMulBits : Nat → Byte → Byte → Byte
  | 0, _, _ => 0
  | n + 1, a, b => (if a.getLsbD 0 then b else 0) ^^^ gfMulBits n (a >>> 1) (xtime b)

/-- The product `a • b` in GF(2^8) (40_primitives.md R157). -/
def gfMul (a b : Byte) : Byte := gfMulBits 8 a b

/-! ### Substitution tables -/

/-- The table of SBOX, one row for each high nibble, its first entry in the highest byte (40_primitives.md R159). -/
def sboxRows : List (BitVec 128) := [
  0x637c777bf26b6fc53001672bfed7ab76#128,
  0xca82c97dfa5947f0add4a2af9ca472c0#128,
  0xb7fd9326363ff7cc34a5e5f171d83115#128,
  0x04c723c31896059a071280e2eb27b275#128,
  0x09832c1a1b6e5aa0523bd6b329e32f84#128,
  0x53d100ed20fcb15b6acbbe394a4c58cf#128,
  0xd0efaafb434d338545f9027f503c9fa8#128,
  0x51a3408f929d38f5bcb6da2110fff3d2#128,
  0xcd0c13ec5f974417c4a77e3d645d1973#128,
  0x60814fdc222a908846eeb814de5e0bdb#128,
  0xe0323a0a4906245cc2d3ac629195e479#128,
  0xe7c8376d8dd54ea96c56f4ea657aae08#128,
  0xba78252e1ca6b4c6e8dd741f4bbd8b8a#128,
  0x703eb5664803f60e613557b986c11d9e#128,
  0xe1f8981169d98e949b1e87e9ce5528df#128,
  0x8ca1890dbfe6426841992d0fb054bb16#128]

/-- The table of INV_SBOX, laid out as `sboxRows` (40_primitives.md R160). -/
def invSboxRows : List (BitVec 128) := [
  0x52096ad53036a538bf40a39e81f3d7fb#128,
  0x7ce339829b2fff87348e4344c4dee9cb#128,
  0x547b9432a6c2233dee4c950b42fac34e#128,
  0x082ea16628d924b2765ba2496d8bd125#128,
  0x72f8f66486689816d4a45ccc5d65b692#128,
  0x6c704850fdedb9da5e154657a78d9d84#128,
  0x90d8ab008cbcd30af7e45805b8b34506#128,
  0xd02c1e8fca3f0f02c1afbd0301138a6b#128,
  0x3a9111414f67dcea97f2cfcef0b4e673#128,
  0x96ac7422e7ad3585e2f937e81c75df6e#128,
  0x47f11a711d29c5896fb7620eaa18be1b#128,
  0xfc563e4bc6d279209adbc0fe78cd5af4#128,
  0x1fdda8338807c731b11210592780ec5f#128,
  0x60517fa919b54a0d2de57a9f93c99cef#128,
  0xa0e03b4dae2af5b0c8ebbb3c83539961#128,
  0x172b047eba77d626e169146355210c7d#128]

/-- The entry of a table at a byte: row its high nibble, column its low nibble. -/
def tableEntry (rows : List (BitVec 128)) (x : Byte) : Byte :=
  (rows.getD (x.toNat / 16) 0).extractLsb' (8 * (15 - x.toNat % 16)) 8

/-- `SBOX[x]` (40_primitives.md R159). -/
def sbox (x : Byte) : Byte := tableEntry sboxRows x

/-- `INV_SBOX[x]` (40_primitives.md R160). -/
def invSbox (x : Byte) : Byte := tableEntry invSboxRows x

/-! ### State transformations -/

/-- `s[r][c]` (40_primitives.md R158). -/
def stateByte (st : Bytes) (r c : Nat) : Byte := st.getD (r + 4 * c) 0

/-- The state whose entry at row `r`, column `c` is `f r c` (40_primitives.md R158). -/
def stateOf (f : Nat → Nat → Byte) : Bytes := (List.range 16).map fun i => f (i % 4) (i / 4)

/-- `SubBytes` (40_primitives.md R159). -/
def subBytes (st : Bytes) : Bytes := st.map sbox

/-- `InvSubBytes` (40_primitives.md R160). -/
def invSubBytes (st : Bytes) : Bytes := st.map invSbox

/-- `ShiftRows` (40_primitives.md R161). -/
def shiftRows (st : Bytes) : Bytes := stateOf fun r c => stateByte st r ((c + r) % 4)

/-- `InvShiftRows` (40_primitives.md R161); `c + 4 - r` is `c - r` modulo 4. -/
def invShiftRows (st : Bytes) : Bytes := stateOf fun r c => stateByte st r ((c + 4 - r) % 4)

/-- The column mixing with multipliers `m0` to `m3` (40_primitives.md R162). -/
def mixWith (m0 m1 m2 m3 : Byte) (st : Bytes) : Bytes :=
  stateOf fun r c =>
    gfMul m0 (stateByte st r c) ^^^ gfMul m1 (stateByte st ((r + 1) % 4) c)
      ^^^ gfMul m2 (stateByte st ((r + 2) % 4) c) ^^^ gfMul m3 (stateByte st ((r + 3) % 4) c)

/-- `MixColumns` (40_primitives.md R162). -/
def mixColumns (st : Bytes) : Bytes := mixWith 0x02 0x03 0x01 0x01 st

/-- `InvMixColumns` (40_primitives.md R162). -/
def invMixColumns (st : Bytes) : Bytes := mixWith 0x0E 0x0B 0x0D 0x09 st

/-! ### Key expansion -/

/-- `Rcon[i]`, `i` from 1 to 10 (40_primitives.md R164). -/
def rcon (i : Nat) : Byte :=
  [0x00, 0x01, 0x02, 0x04, 0x08, 0x10, 0x20, 0x40, 0x80, 0x1B, 0x36].getD i 0

/-- `RotWord` (40_primitives.md R164). -/
def rotWord (w : Bytes) : Bytes := w.drop 1 ++ w.take 1

/-- `SubWord` (40_primitives.md R164). -/
def subWord (w : Bytes) : Bytes := w.map sbox

/-- The value `t` of step `i` of the key expansion, from the word `w[i-1]` (40_primitives.md R164). -/
def expansionTemp (nk i : Nat) (prev : Bytes) : Bytes :=
  if i % nk = 0 then xorBytes (subWord (rotWord prev)) [rcon (i / nk), 0, 0, 0]
  else if nk = 8 ∧ i % nk = 4 then subWord prev
  else prev

/-- `n` further words of the key expansion from step `i` on (40_primitives.md R164). The words stand newest first, so
that `w[i-1]` and `w[i-Nk]` are the entries 0 and `Nk - 1`. -/
def expandWords (nk : Nat) : Nat → Nat → List Bytes → List Bytes
  | 0, _, ws => ws
  | n + 1, i, ws =>
    expandWords nk n (i + 1)
      (xorBytes (ws.getD (nk - 1) []) (expansionTemp nk i (ws.getD 0 [])) :: ws)

/-- `Nk`, the key length in words (40_primitives.md R156). -/
def keyWords (key : Bytes) : Nat := key.length / 4

/-- `Nr`, the number of rounds: 10 for `Nk = 4` and 14 for `Nk = 8` (40_primitives.md R156). -/
def aesRounds (nk : Nat) : Nat := nk + 6

/-- The words `w[0..4*(Nr+1)-1]` of the expanded key (40_primitives.md R164). -/
def keyExpansion (key : Bytes) : List Bytes :=
  let nk := keyWords key
  (expandWords nk (4 * (aesRounds nk + 1) - nk) nk (pieces 4 nk key).reverse).reverse

/-- Round key `i`, the 16 bytes of words `w[4i .. 4i+3]` (40_primitives.md R158, R163). -/
def roundKey (ws : List Bytes) (i : Nat) : Bytes :=
  ws.getD (4 * i) [] ++ ws.getD (4 * i + 1) [] ++ ws.getD (4 * i + 2) [] ++ ws.getD (4 * i + 3) []

/-- `AddRoundKey(i)` (40_primitives.md R163). -/
def addRoundKey (ws : List Bytes) (i : Nat) (st : Bytes) : Bytes := xorBytes st (roundKey ws i)

/-! ### The cipher -/

/-- Rounds 1 to `n` of the encryption (40_primitives.md R165). -/
def encRounds (ws : List Bytes) : Nat → Bytes → Bytes
  | 0, st => st
  | n + 1, st => addRoundKey ws (n + 1) (mixColumns (shiftRows (subBytes (encRounds ws n st))))

/-- Rounds `n` down to 1 of the decryption (40_primitives.md R166). -/
def decRounds (ws : List Bytes) : Nat → Bytes → Bytes
  | 0, st => st
  | n + 1, st => decRounds ws n (invMixColumns (addRoundKey ws (n + 1) (invSubBytes (invShiftRows st))))

/-- `AES_Enc(K, B)` (40_primitives.md R165). -/
def aesEnc (key blk : Bytes) : Bytes :=
  let ws := keyExpansion key
  let nr := aesRounds (keyWords key)
  addRoundKey ws nr (shiftRows (subBytes (encRounds ws (nr - 1) (addRoundKey ws 0 blk))))

/-- `AES_Dec(K, B)` (40_primitives.md R166). -/
def aesDec (key blk : Bytes) : Bytes :=
  let ws := keyExpansion key
  let nr := aesRounds (keyWords key)
  addRoundKey ws 0 (invSubBytes (invShiftRows (decRounds ws (nr - 1) (addRoundKey ws nr blk))))

end Sys2Proof.Machine
end

