-- ==== Sys2Proof/Machine/Cbc.lean ====
section
/-! DEFINITION. CBC mode without padding (40_primitives.md R167 to R169). -/

namespace Sys2Proof.Machine

/-- The AES block size in bytes (00_scope.md R12). -/
def aesBlock : Nat := 16

/-- The whole blocks of a string (40_primitives.md R167). -/
def cipherBlocks (b : Bytes) : List Bytes := pieces aesBlock (b.length / aesBlock) b

/-- `C_i = AES_Enc(K, P_i XOR C_(i-1))`, block after block (40_primitives.md R167). -/
def cbcEncBlocks (key : Bytes) : Bytes → List Bytes → List Bytes
  | _, [] => []
  | prev, p :: ps =>
    let c := aesEnc key (xorBytes p prev)
    c :: cbcEncBlocks key c ps

/-- `P_i = AES_Dec(K, C_i) XOR C_(i-1)`, block after block (40_primitives.md R168). -/
def cbcDecBlocks (key : Bytes) : Bytes → List Bytes → List Bytes
  | _, [] => []
  | prev, c :: cs => xorBytes (aesDec key c) prev :: cbcDecBlocks key c cs

/-- `CBC_Enc(K, IV, P)` (40_primitives.md R167). -/
def cbcEnc (key iv p : Bytes) : Bytes := (cbcEncBlocks key iv (cipherBlocks p)).flatten

/-- `CBC_Dec(K, IV, C)` (40_primitives.md R168). -/
def cbcDec (key iv c : Bytes) : Bytes := (cbcDecBlocks key iv (cipherBlocks c)).flatten

end Sys2Proof.Machine
end

