-- ==== Sys2Proof/Machine/Prf.lean ====
section
/-! DEFINITION. The PRF unit and PRF_DERIVE (41_prf.md). -/

namespace Sys2Proof.Machine

/-- The loop of 41_prf.md R200: `A <- HMAC_h(secret, A)`, `out <- out ‖ HMAC_h(secret, A ‖ seed)`, until `|out| >= L`.
The first argument bounds the number of further iterations. -/
def prfLoop (h : HashVariant) (secret seed : Bytes) (L : Nat) : Nat → Bytes → Bytes → Bytes
  | 0, _, out => out
  | n + 1, a, out =>
    let a' := hmac h secret a
    let out' := out ++ hmac h secret (a' ++ seed)
    if out'.length ≥ L then out' else prfLoop h secret seed L n a' out'

/-- `PRF(secret, seed, L, h)` (41_prf.md R200). Every iteration appends at least one byte, so `L` iterations always
reach `|out| >= L`. -/
def prf (secret seed : Bytes) (L : Nat) (h : HashVariant) : Bytes :=
  (prfLoop h secret seed L L seed []).take L

/-- The rule of PRF_DERIVE (41_prf.md R205). -/
def prfDeriveRule (hash : Nat) (s : State) : Except ErrCode Effect := do
  let h ← selectHash hash
  let L := s.outLen.toNat
  raiseIf (decide (L = 0)) .config
  let secret ← s.sourceInput
  let seed ← s.seedInput
  s.checkOut s.dstAddr.toNat L
  return { dst := s.dstAddr.toNat, out := prf secret seed L h, resultLen := L }

/-- PRF_DERIVE (41_prf.md R205, 60_exceptions.md R336). -/
def execPrfDerive (hash : Nat) (s : State) : Host.Outcome State Fault Refusal :=
  .next (s.complete (prfDeriveRule hash s))

end Sys2Proof.Machine
end

