-- ==== Sys2Proof/Machine/KeyScheduler.lean ====
section
/-! DEFINITION. The key scheduler: KEY_DERIVE and KEY_CLEAR (42_key_scheduler.md). -/

namespace Sys2Proof.Machine

/-- `b[i:j]` (00_scope.md R13). -/
def slice (b : Bytes) (i j : Nat) : Bytes := (b.drop i).take (j - i)

/-- The declared lengths of KCFG0 and KCFG1 are consistent (42_key_scheduler.md R222). -/
def State.lengthsConsistent (s : State) (alg : CipherAlg) (h : HashVariant) : Bool :=
  decide (s.kcfgEbs.toNat = 16) && decide (s.kcfgEkl.toNat = klen alg)
    && decide (s.kcfgSgl.toNat = hlen h) && decide (s.kcfgSkl.toNat ≤ s.params.maxSkl)

/-- `offset3`, the length of the PRF stream (42_key_scheduler.md R221). -/
def State.streamLength (s : State) : Nat := s.kcfgSkl.toNat + s.kcfgEkl.toNat + s.kcfgEbs.toNat

/-- The key set sliced from a PRF stream (42_key_scheduler.md R221, R225). -/
def State.sliceKeys (s : State) (alg : CipherAlg) (h : HashVariant) (stream : Bytes) : KeySlot :=
  let o1 := s.kcfgSkl.toNat
  let o2 := o1 + s.kcfgEkl.toNat
  let o3 := o2 + s.kcfgEbs.toNat
  { valid := true, alg := alg, hash := h
    skl := s.kcfgSkl, ekl := s.kcfgEkl, ebs := s.kcfgEbs, sgl := s.kcfgSgl
    sk := slice stream 0 o1, ek := slice stream o1 o2, iv := slice stream o2 o3 }

/-- The rule of KEY_DERIVE (42_key_scheduler.md R225). -/
def keyDeriveRule (slot hash alg : Nat) (s : State) : Except ErrCode Effect := do
  let h ← selectHash hash
  let a ← selectAlg alg
  let ks ← s.selectSlot slot
  raiseIf ks.valid .slotInUse
  raiseIf (!s.lengthsConsistent a h) .config
  let secret ← s.sourceInput
  let seed ← s.seedInput
  let stream := prf secret seed s.streamLength h
  return { slotWrite := some (slot, s.sliceKeys a h stream), resultLen := s.streamLength }

/-- KEY_DERIVE (42_key_scheduler.md R225, 60_exceptions.md R336). -/
def execKeyDerive (slot hash alg : Nat) (s : State) : Host.Outcome State Fault Refusal :=
  .next (s.complete (keyDeriveRule slot hash alg s))

/-- The rule of KEY_CLEAR (42_key_scheduler.md R230). -/
def keyClearRule (slot : Nat) (s : State) : Except ErrCode Effect := do
  let _ ← s.selectSlot slot
  return { slotWrite := some (slot, KeySlot.empty), resultLen := 0 }

/-- KEY_CLEAR (42_key_scheduler.md R230, 60_exceptions.md R336). -/
def execKeyClear (slot : Nat) (s : State) : Host.Outcome State Fault Refusal :=
  .next (s.complete (keyClearRule slot s))

end Sys2Proof.Machine
end

