-- ==== Sys2Proof/Machine/Padding.lean ====
section
/-! DEFINITION. The padding codec: PAD_FOOTER and PAD_STRIP (43_padding.md). -/

namespace Sys2Proof.Machine

/-- `paddingSize` (43_padding.md R250). -/
def paddingSize (plainLength blockSize : Nat) : Nat := blockSize - (plainLength + 1) % blockSize

/-- `computeFooter(plainLength, blockSize)` (43_padding.md R250). -/
def computeFooter (plainLength blockSize : Nat) : Bytes :=
  let ps := paddingSize plainLength blockSize
  constBytes (BitVec.ofNat 8 ps) (ps + 1)

/-- `stripFooter(b)` (43_padding.md R255). -/
def stripFooter (b : Bytes) : Except ErrCode Bytes := do
  raiseIf (decide (b.length = 0)) .protocol
  let n := (b.getD (b.length - 1) 0).toNat
  raiseIf (decide (n + 1 > b.length)) .protocol
  return b.take (b.length - (n + 1))

/-- The rule of PAD_FOOTER (43_padding.md R252). -/
def padFooterRule (bs : Nat) (s : State) : Except ErrCode Effect := do
  raiseIf (decide (bs = 0)) .config
  let L := s.srcLen.toNat
  let ps := paddingSize L bs
  s.checkOut s.dstAddr.toNat (ps + 1)
  return { dst := s.dstAddr.toNat, out := computeFooter L bs, resultLen := ps + 1 }

/-- PAD_FOOTER (43_padding.md R252, 60_exceptions.md R336). -/
def execPadFooter (bs : Nat) (s : State) : Host.Outcome State Fault Refusal :=
  .next (s.complete (padFooterRule bs s))

/-- The rule of PAD_STRIP (43_padding.md R256). -/
def padStripRule (s : State) : Except ErrCode Effect := do
  let b ← s.sourceInput
  let stripped ← stripFooter b
  return { resultLen := stripped.length }

/-- PAD_STRIP (43_padding.md R256, 60_exceptions.md R336). -/
def execPadStrip (s : State) : Host.Outcome State Fault Refusal :=
  .next (s.complete (padStripRule s))

end Sys2Proof.Machine
end

