-- ==== Sys2Proof/Machine/Cipher.lean ====
section
/-! DEFINITION. The AES-CBC cipher engine: CBC_ENCRYPT and CBC_DECRYPT (44_cbc_cipher.md). -/

namespace Sys2Proof.Machine

/-- The rule of CBC_ENCRYPT (44_cbc_cipher.md R272). -/
def cbcEncryptRule (slot : Nat) (s : State) : Except ErrCode Effect := do
  let ks ← s.keyedSlot slot
  let n := s.srcLen.toNat
  let p ← s.sourceInput
  raiseIf (decide (n % ks.ebs.toNat ≠ 0)) .protocol
  s.checkOut s.dstAddr.toNat n
  return { dst := s.dstAddr.toNat, out := cbcEnc ks.ek ks.iv p, resultLen := n }

/-- CBC_ENCRYPT (44_cbc_cipher.md R272, 60_exceptions.md R336). -/
def execCbcEncrypt (slot : Nat) (s : State) : Host.Outcome State Fault Refusal :=
  .next (s.complete (cbcEncryptRule slot s))

/-- The rule of CBC_DECRYPT (44_cbc_cipher.md R276). -/
def cbcDecryptRule (slot : Nat) (s : State) : Except ErrCode Effect := do
  let ks ← s.keyedSlot slot
  let n := s.srcLen.toNat
  let c ← s.sourceInput
  raiseIf (decide (n % ks.ebs.toNat ≠ 0)) .protocol
  s.checkOut s.dstAddr.toNat n
  return { dst := s.dstAddr.toNat, out := cbcDec ks.ek ks.iv c, resultLen := n }

/-- CBC_DECRYPT (44_cbc_cipher.md R276, 60_exceptions.md R336). -/
def execCbcDecrypt (slot : Nat) (s : State) : Host.Outcome State Fault Refusal :=
  .next (s.complete (cbcDecryptRule slot s))

end Sys2Proof.Machine
end

