-- ==== Sys2Proof/Machine/Signature.lean ====
section
/-! DEFINITION. The HMAC signature unit: HMAC_SIGN and HMAC_VERIFY (45_hmac_signature.md). -/

namespace Sys2Proof.Machine

/-- `sign(message, keys)` (45_hmac_signature.md R290). -/
def KeySlot.sign (ks : KeySlot) (m : Bytes) : Bytes := hmac ks.hash ks.sk m

/-- The message of a signed buffer, all but the last `g` bytes (45_hmac_signature.md R291). -/
def signedMessage (g : Nat) (b : Bytes) : Bytes := slice b 0 (b.length - g)

/-- The claimed signature of a signed buffer, its last `g` bytes (45_hmac_signature.md R291). -/
def claimedSignature (g : Nat) (b : Bytes) : Bytes := slice b (b.length - g) b.length

/-- The verdict on a signed buffer of at least SGL bytes: all SGL bytes are compared (45_hmac_signature.md R291). -/
def KeySlot.verifies (ks : KeySlot) (b : Bytes) : Bool :=
  decide (ks.sign (signedMessage ks.sgl.toNat b) = claimedSignature ks.sgl.toNat b)

/-- The rule of HMAC_SIGN (45_hmac_signature.md R292). -/
def hmacSignRule (slot : Nat) (s : State) : Except ErrCode Effect := do
  let ks ← s.keyedSlot slot
  let m ← s.sourceInput
  s.checkOut s.dstAddr.toNat ks.sgl.toNat
  return { dst := s.dstAddr.toNat, out := ks.sign m, resultLen := ks.sgl.toNat }

/-- HMAC_SIGN (45_hmac_signature.md R292, 60_exceptions.md R336). -/
def execHmacSign (slot : Nat) (s : State) : Host.Outcome State Fault Refusal :=
  .next (s.complete (hmacSignRule slot s))

/-- The rule of HMAC_VERIFY (45_hmac_signature.md R296). -/
def hmacVerifyRule (slot : Nat) (s : State) : Except ErrCode Effect := do
  let ks ← s.keyedSlot slot
  let n := s.srcLen.toNat
  let b ← s.sourceInput
  let g := ks.sgl.toNat
  raiseIf (decide (n < g)) .protocol
  return { resultLen := n - g, auth := ks.verifies b }

/-- HMAC_VERIFY (45_hmac_signature.md R296, 60_exceptions.md R336). -/
def execHmacVerify (slot : Nat) (s : State) : Host.Outcome State Fault Refusal :=
  .next (s.complete (hmacVerifyRule slot s))

end Sys2Proof.Machine
end

