-- ==== Sys2Proof/Machine/Pipeline.lean ====
section
/-! DEFINITION. The chunk pipeline: PROTECT_CHUNK and UNPROTECT_CHUNK (46_chunk_pipeline.md). -/

namespace Sys2Proof.Machine

/-- `padded`: plaintext, signature, footer (46_chunk_pipeline.md R310, R313). -/
def KeySlot.padChunk (ks : KeySlot) (p : Bytes) : Bytes :=
  let signed := p ++ ks.sign p
  signed ++ computeFooter signed.length ks.ebs.toNat

/-- The rule of PROTECT_CHUNK (46_chunk_pipeline.md R312). -/
def protectChunkRule (slot : Nat) (s : State) : Except ErrCode Effect := do
  let ks ← s.keyedSlot slot
  let p ← s.sourceInput
  let padded := ks.padChunk p
  s.checkOut s.dstAddr.toNat padded.length
  return { dst := s.dstAddr.toNat, out := cbcEnc ks.ek ks.iv padded, resultLen := padded.length }

/-- PROTECT_CHUNK (46_chunk_pipeline.md R312, 60_exceptions.md R336). -/
def execProtectChunk (slot : Nat) (s : State) : Host.Outcome State Fault Refusal :=
  .next (s.complete (protectChunkRule slot s))

/-- The rule of UNPROTECT_CHUNK (46_chunk_pipeline.md R316). -/
def unprotectChunkRule (slot : Nat) (s : State) : Except ErrCode Effect := do
  let ks ← s.keyedSlot slot
  let n := s.srcLen.toNat
  let c ← s.sourceInput
  raiseIf (decide (n % ks.ebs.toNat ≠ 0)) .protocol
  let signed ← stripFooter (cbcDec ks.ek ks.iv c)
  let g := ks.sgl.toNat
  raiseIf (decide (signed.length < g)) .protocol
  let m := signedMessage g signed
  s.checkOut s.dstAddr.toNat m.length
  return { dst := s.dstAddr.toNat, out := m, resultLen := m.length, auth := ks.verifies signed }

/-- UNPROTECT_CHUNK (46_chunk_pipeline.md R316, 60_exceptions.md R336). -/
def execUnprotectChunk (slot : Nat) (s : State) : Host.Outcome State Fault Refusal :=
  .next (s.complete (unprotectChunkRule slot s))

end Sys2Proof.Machine
end

