-- ==== Sys2Proof/Machine/Dispatch.lean ====
section
/-! DEFINITION. The meaning of every command: one arm per constructor, one direct call each. exec is the completion
step (60_exceptions.md R336) of a command that decoded (R332). -/

namespace Sys2Proof.Machine

def exec (i : Instr) (s : State) : Host.Outcome State Fault Refusal :=
  match i with
  | .prfDerive hash => Sys2Proof.Machine.execPrfDerive hash s
  | .keyDerive slot hash alg => Sys2Proof.Machine.execKeyDerive slot hash alg s
  | .keyClear slot => Sys2Proof.Machine.execKeyClear slot s
  | .padFooter bs => Sys2Proof.Machine.execPadFooter bs s
  | .padStrip => Sys2Proof.Machine.execPadStrip s
  | .cbcEncrypt slot => Sys2Proof.Machine.execCbcEncrypt slot s
  | .cbcDecrypt slot => Sys2Proof.Machine.execCbcDecrypt slot s
  | .hmacSign slot => Sys2Proof.Machine.execHmacSign slot s
  | .hmacVerify slot => Sys2Proof.Machine.execHmacVerify slot s
  | .protectChunk slot => Sys2Proof.Machine.execProtectChunk slot s
  | .unprotectChunk slot => Sys2Proof.Machine.execUnprotectChunk slot s

end Sys2Proof.Machine
end

