-- ==== Sys2Proof/Machine/Agents.lean ====
section
/-! DEFINITION. The turns of the two agents and of the reset input (10_state.md R30, 60_exceptions.md R336,
70_reset_and_hazards.md R370). -/

namespace Sys2Proof.Machine

/-- The completion step of the engine: decode the word of CMD (60_exceptions.md R332) and evaluate its command, or
complete with ILLEGAL (R331). -/
def State.runCommand (s : State) : Host.Outcome State Fault Refusal :=
  match decode s.cmd with
  | .ok i => exec i s
  | .error _ => .next (s.complete (.error .illegal))

/-- The engine's turn: it completes the command it is executing; while it is idle it does nothing
(10_state.md R30). -/
def State.engineTurn (s : State) : Host.Outcome State Fault Refusal :=
  if s.busy then s.runCommand else .next s

/-- The host's turn: its next operation, or nothing when it has issued its last (60_exceptions.md R347). -/
def State.hostTurn (s : State) : Host.Outcome State Fault Refusal :=
  match s.hostOps with
  | [] => .next s
  | op :: rest => s.perform op rest

/-- Whose turn it is, and the state with that turn taken from the schedule. With no turn left in the schedule the
engine moves while it is busy, else the host (70_reset_and_hazards.md R385, 60_exceptions.md R347, log 2). -/
def State.nextTurn (s : State) : Turn × State :=
  match s.turns with
  | [] => (if s.busy then .engine else .host, s)
  | t :: ts => (t, { s with turns := ts })

/-- What a turn does. -/
def State.takeTurn (s : State) : Turn → Host.Outcome State Fault Refusal
  | .host => s.hostTurn
  | .engine => s.engineTurn
  | .reset => .next s.assertReset

/-- One step of the machine. -/
def State.advance (s : State) : Host.Outcome State Fault Refusal := s.nextTurn.2.takeTurn s.nextTurn.1

/-- The state in which the word has just been accepted (10_state.md R42) and the engine's completion step is next. -/
def State.commandPending (s : State) (w : Word) : State :=
  { s.accept w with turns := .engine :: s.turns }

end Sys2Proof.Machine
end

