-- ==== Sys2Proof/Machine/Step.lean ====
section
/-! DEFINITION. The step of the machine, and the placing of a command where the next step takes it. -/

namespace Sys2Proof.Machine

/-- One step: the next agent's turn (10_state.md R30), or a reset assertion. -/
def step (s : State) : Host.Outcome State Fault Refusal := s.advance

/-- The state whose next step runs the given word: it stands for the host's write to CMD (10_state.md R42) with the
engine's completion step scheduled next (log 6). -/
def State.withFetchWord (s : State) (nbits w : Nat) : State := s.commandPending (tableWord nbits w)

end Sys2Proof.Machine
end

