-- ==== Sys2Proof/Machine/Asm.lean ====
section
/-! DEFINITION. The assembler forms (30_encoding.md R119) and the host-program syntax (30_encoding.md R120) as data. -/

namespace Sys2Proof.Machine

/-- A command in assembler syntax (30_encoding.md R119). A hash left out is `none`. -/
inductive AsmCommand where
  | prfDerive (hash : Option HashVariant)
  | keyDerive (slot : Fin 16) (alg : CipherAlg) (hash : Option HashVariant)
  | keyClear (slot : Fin 16)
  | padFooter (bs : Fin 256)
  | padStrip
  | cbcEncrypt (slot : Fin 16)
  | cbcDecrypt (slot : Fin 16)
  | hmacSign (slot : Fin 16)
  | hmacVerify (slot : Fin 16)
  | protectChunk (slot : Fin 16)
  | unprotectChunk (slot : Fin 16)
  deriving DecidableEq, Repr

/-- The HASH field of an operand; one left out assembles as `SHA1` (30_encoding.md R112, R119). -/
def asmHash (h : Option HashVariant) : Nat := (hashCode (h.getD .sha1)).toNat

/-- The command a line of assembler stands for (30_encoding.md R119). -/
def AsmCommand.instr : AsmCommand → Instr
  | .prfDerive hash => .prfDerive (asmHash hash)
  | .keyDerive slot alg hash => .keyDerive slot (asmHash hash) (algCode alg).toNat
  | .keyClear slot => .keyClear slot
  | .padFooter bs => .padFooter bs
  | .padStrip => .padStrip
  | .cbcEncrypt slot => .cbcEncrypt slot
  | .cbcDecrypt slot => .cbcDecrypt slot
  | .hmacSign slot => .hmacSign slot
  | .hmacVerify slot => .hmacVerify slot
  | .protectChunk slot => .protectChunk slot
  | .unprotectChunk slot => .unprotectChunk slot

/-- The word a line of assembler assembles to (30_encoding.md R119). -/
def AsmCommand.assemble (c : AsmCommand) : Word := encode c.instr

/-- `WREG <NAME>, <v>` (30_encoding.md R120). -/
def wreg (r : Reg) (v : Word) : List HostOp := [.write32 (BitVec.ofNat 32 r.offset) v]

/-- `WBUF <a>, <hex>` (30_encoding.md R120). -/
def wbuf : Nat → Bytes → List HostOp
  | _, [] => []
  | a, b :: v => .write8 (BitVec.ofNat 32 (0x10000 + a)) b :: wbuf (a + 1) v

/-- `RBUF <a>, <n>` (30_encoding.md R120). -/
def rbuf (a n : Nat) : List HostOp :=
  (List.range n).map fun i => .read8 (BitVec.ofNat 32 (0x10000 + a + i))

/-- `EXEC <command>` (30_encoding.md R120). -/
def execOp (c : AsmCommand) : List HostOp := [.write32 0x010#32 c.assemble]

/-- `CLRST` (30_encoding.md R120). -/
def clrst : List HostOp := [.write32 0x00C#32 0x00000016#32]

/-- The state in which a host program starts: the reset state with the program still to be issued and the turns
given (60_exceptions.md R347). -/
def State.boot (p : Params) (prog : List HostOp) (turns : List Turn) : State :=
  { State.resetWith p with hostOps := prog, turns := turns }

end Sys2Proof.Machine
end

