-- ==== Sys2Proof/Safety.lean ====
section
/-! DEFINITION. The terms claims are stated in: the invariant of the state, the accesses that draw no bus error, and
what a completed command leaves. -/

namespace Sys2Proof.Machine

/-! ### The invariant -/

/-- The slot invariant (10_state.md R46). -/
def KeySlot.inv (maxSkl : Nat) (ks : KeySlot) : Bool :=
  if ks.valid then
    decide (ks.sk.length = ks.skl.toNat) && decide (ks.ek.length = ks.ekl.toNat)
      && decide (ks.iv.length = ks.ebs.toNat)
      && decide (ks.ebs.toNat = 16) && decide (ks.ekl.toNat = klen ks.alg)
      && decide (ks.sgl.toNat = hlen ks.hash) && decide (ks.skl.toNat ≤ maxSkl)
  else decide (ks = KeySlot.empty)

/-- The invariant of every state a run reaches: legal parameters (00_scope.md R11), NKS slots that meet the slot
invariant (10_state.md R45, R46), a canonical memory inside `BUF` (R50), cleared results while busy (R43), and an error
code exactly while ERR is set, with nothing beside it (R36, 60_exceptions.md R334). -/
def State.inv (s : State) : Bool :=
  s.params.legal
    && decide (s.slots.length = s.params.nks) && s.slots.all (fun ks => ks.inv s.params.maxSkl)
    && Memory.wf s.buf && Memory.within s.params.bufSize s.buf
    && (!s.busy || (!s.done && !s.err && !s.auth && decide (s.resultLen = 0)))
    && decide (s.err = false ↔ s.errCode = .noError)
    && (!s.err || (!s.auth && decide (s.resultLen = 0)))

/-! ### Accesses without a bus error -/

/-- An offset of the register page or of the key-slot window (20_memory.md R84). -/
def inPages (off : Nat) : Bool := decide (off < 0x5000)

/-- An offset of the key-slot window (20_memory.md R84). -/
def inWindow (off : Nat) : Bool := decide (0x1000 ≤ off) && decide (off < 0x5000)

/-- An offset of `BUF` (20_memory.md R84). -/
def inBuffer (p : Params) (off : Nat) : Bool := decide (0x10000 ≤ off) && decide (off < 0x10000 + p.bufSize)

/-- The host operation draws no bus error (20_memory.md R82, R84, R85). -/
def HostOp.allowed (p : Params) : HostOp → Bool
  | .write32 off _ => decide (off.toNat % 4 = 0) && (inPages off.toNat || inBuffer p off.toNat)
  | .read32 off => decide (off.toNat % 4 = 0) && (inPages off.toNat || inBuffer p off.toNat)
  | .write8 off _ => inWindow off.toNat || inBuffer p off.toNat
  | .read8 off => inWindow off.toNat || inBuffer p off.toNat
  | .otherWidth _ => false
  | .wait => true

/-- The host operation writes to the block. -/
def HostOp.isWrite : HostOp → Bool
  | .write32 _ _ => true
  | .write8 _ _ => true
  | _ => false

/-! ### What a command leaves -/

/-- Everything no command writes is unchanged (10_state.md R39 to R42, 60_exceptions.md R339): the parameters, CTRL,
STATUS.WERR, CMD, the operand registers, KCFG0 and KCFG1, and what stands outside the block. -/
def State.keeps (s t : State) : Prop :=
  t.params = s.params ∧ t.ctrlIE = s.ctrlIE ∧ t.werr = s.werr ∧ t.cmd = s.cmd
    ∧ t.srcAddr = s.srcAddr ∧ t.srcLen = s.srcLen ∧ t.seedAddr = s.seedAddr ∧ t.seedLen = s.seedLen
    ∧ t.dstAddr = s.dstAddr ∧ t.outLen = s.outLen
    ∧ t.kcfgSkl = s.kcfgSkl ∧ t.kcfgEkl = s.kcfgEkl ∧ t.kcfgEbs = s.kcfgEbs ∧ t.kcfgSgl = s.kcfgSgl
    ∧ t.hostOps = s.hostOps ∧ t.reads = s.reads ∧ t.turns = s.turns

/-- The string stands in the memory of `t` from address `dst` on, and every other byte is as in `s`. -/
def State.wrote (s t : State) (dst : Nat) (out : Bytes) : Prop :=
  ∀ a, t.buf.read a = if dst ≤ a ∧ a < dst + out.length then out[a - dst]? else s.buf.read a

/-- Every byte of memory is as before. -/
def State.sameBuf (s t : State) : Prop := ∀ a, t.buf.read a = s.buf.read a

/-- The command ended without error: DONE, no ERR, no ERRCODE, the engine idle, and the given AUTH and RESULT_LEN
(60_exceptions.md R336). -/
def State.endedOk (t : State) (len : Nat) (auth : Bool) : Prop :=
  t.busy = false ∧ t.done = true ∧ t.err = false ∧ t.errCode = .noError ∧ t.auth = auth ∧ t.resultLen.toNat = len

/-- The command ended with the error: DONE, ERR and its code, the engine idle, AUTH and RESULT_LEN 0, and no slot and
no byte of memory changed (60_exceptions.md R334, R336). -/
def State.endedWithError (s t : State) (c : ErrCode) : Prop :=
  t.busy = false ∧ t.done = true ∧ t.err = true ∧ t.errCode = c ∧ t.auth = false ∧ t.resultLen = 0
    ∧ t.slots = s.slots ∧ t.buf = s.buf

/-- How a command ended whose checks, taken in order, give `c`: without error, or with that error. -/
def State.endedAs (s t : State) (c : ErrCode) : Prop :=
  (c = .noError ∧ t.err = false ∧ t.errCode = .noError) ∨ (c ≠ .noError ∧ s.endedWithError t c)

/-- The block's own state is the same: what differs is what stands outside it. -/
def State.sameBlock (s t : State) : Prop :=
  t = { s with hostOps := t.hostOps, reads := t.reads, turns := t.turns, draw := t.draw }

/-- The first input region lies inside `BUF` (20_memory.md R90). -/
def State.sourceInside (s : State) : Prop := s.srcAddr.toNat + s.srcLen.toNat ≤ s.params.bufSize

/-- The second input region lies inside `BUF` (20_memory.md R90). -/
def State.seedInside (s : State) : Prop := s.seedAddr.toNat + s.seedLen.toNat ≤ s.params.bufSize

/-- An output region of `n` bytes at DST_ADDR lies inside `BUF` (20_memory.md R91). -/
def State.outputInside (s : State) (n : Nat) : Prop := s.dstAddr.toNat + n ≤ s.params.bufSize

/-- Every byte of the first input region has been written (70_reset_and_hazards.md R376). -/
def State.sourceWritten (s : State) : Prop :=
  ∀ i, i < s.srcLen.toNat → (s.buf.read (s.srcAddr.toNat + i)).isSome = true

/-- Every byte of the second input region has been written (70_reset_and_hazards.md R376). -/
def State.seedWritten (s : State) : Prop :=
  ∀ i, i < s.seedLen.toNat → (s.buf.read (s.seedAddr.toNat + i)).isSome = true

/-- The command names a slot of the slot file that holds a key set. -/
def State.keyed (s : State) (k : Nat) : Prop := k < s.params.nks ∧ (s.slot k).valid = true

end Sys2Proof.Machine
end

