-- ==== Sys2Proof/Certificates/Slice0/Obligations.lean ====
section
/-! DEFINITION. The statements for the provers. Each docstring names the rule of spec/ it formalises. -/

open Sys2Proof Sys2Proof.Machine

/-! ### Encoding -/

/-- The words of 30_encoding.md R121 decode to the commands the table gives, and its illegal words are refused. -/
def Obligations.ListedWordsDecode : Prop :=
  decode 0x00000001#32 = .ok (.prfDerive 0) ∧ decode 0x00001001#32 = .ok (.prfDerive 1)
    ∧ decode 0x00000002#32 = .ok (.keyDerive 0 0 0) ∧ decode 0x00000102#32 = .ok (.keyDerive 1 0 0)
    ∧ decode 0x00005002#32 = .ok (.keyDerive 0 1 1) ∧ decode 0x00005102#32 = .ok (.keyDerive 1 1 1)
    ∧ decode 0x00000103#32 = .ok (.keyClear 1) ∧ decode 0x10000004#32 = .ok (.padFooter 16)
    ∧ decode 0x00000005#32 = .ok .padStrip ∧ decode 0x00000006#32 = .ok (.cbcEncrypt 0)
    ∧ decode 0x00000107#32 = .ok (.cbcDecrypt 1) ∧ decode 0x00000008#32 = .ok (.hmacSign 0)
    ∧ decode 0x00000009#32 = .ok (.hmacVerify 0) ∧ decode 0x0000000A#32 = .ok (.protectChunk 0)
    ∧ decode 0x0000010B#32 = .ok (.unprotectChunk 1)
    ∧ decode 0x00000000#32 = .error .unassignedOpcode ∧ decode 0x00010001#32 = .error .reservedFieldSet
    ∧ decode 0x00000101#32 = .error .unusedFieldSet ∧ decode 0x10000005#32 = .error .unusedFieldSet
    ∧ decode 0x0000000C#32 = .error .unassignedOpcode
    ∧ decode 0x00002001#32 = .ok (.prfDerive 2) ∧ decode 0x00008002#32 = .ok (.keyDerive 0 0 2)
    ∧ decode 0x00000206#32 = .ok (.cbcEncrypt 2)

/-- 30_encoding.md R115: a word is a command exactly when it matches the command's mask and match, and then the fields
the command uses give its operands. -/
def Obligations.DecodeFollowsTheOpcodeMap : Prop :=
  ∀ w : Word,
    (∀ h, decode w = .ok (.prfDerive h) ↔ w &&& 0xFFFFCFFF#32 = 0x00000001#32 ∧ h = (w.toNat / 2 ^ 12) % 4)
    ∧ (∀ k h a, decode w = .ok (.keyDerive k h a) ↔ w &&& 0xFFFF00FF#32 = 0x00000002#32
        ∧ k = (w.toNat / 2 ^ 8) % 16 ∧ h = (w.toNat / 2 ^ 12) % 4 ∧ a = (w.toNat / 2 ^ 14) % 4)
    ∧ (∀ k, decode w = .ok (.keyClear k) ↔ w &&& 0xFFFFF0FF#32 = 0x00000003#32 ∧ k = (w.toNat / 2 ^ 8) % 16)
    ∧ (∀ b, decode w = .ok (.padFooter b) ↔ w &&& 0x00FFFFFF#32 = 0x00000004#32 ∧ b = w.toNat / 2 ^ 24)
    ∧ (decode w = .ok .padStrip ↔ w = 0x00000005#32)
    ∧ (∀ k, decode w = .ok (.cbcEncrypt k) ↔ w &&& 0xFFFFF0FF#32 = 0x00000006#32 ∧ k = (w.toNat / 2 ^ 8) % 16)
    ∧ (∀ k, decode w = .ok (.cbcDecrypt k) ↔ w &&& 0xFFFFF0FF#32 = 0x00000007#32 ∧ k = (w.toNat / 2 ^ 8) % 16)
    ∧ (∀ k, decode w = .ok (.hmacSign k) ↔ w &&& 0xFFFFF0FF#32 = 0x00000008#32 ∧ k = (w.toNat / 2 ^ 8) % 16)
    ∧ (∀ k, decode w = .ok (.hmacVerify k) ↔ w &&& 0xFFFFF0FF#32 = 0x00000009#32 ∧ k = (w.toNat / 2 ^ 8) % 16)
    ∧ (∀ k, decode w = .ok (.protectChunk k) ↔ w &&& 0xFFFFF0FF#32 = 0x0000000A#32 ∧ k = (w.toNat / 2 ^ 8) % 16)
    ∧ (∀ k, decode w = .ok (.unprotectChunk k) ↔
        w &&& 0xFFFFF0FF#32 = 0x0000000B#32 ∧ k = (w.toNat / 2 ^ 8) % 16)

/-- 60_exceptions.md R331: the words that are illegal, and nothing else: an unassigned OPC, RSV not zero, or a field
the opcode does not use not zero (30_encoding.md R115 gives the fields each opcode uses). -/
def Obligations.IllegalWordsAreExactlyThese : Prop :=
  ∀ w : Word, (∃ r, decode w = .error r) ↔
    fieldOpc w = 0 ∨ 0x0B < fieldOpc w ∨ fieldRsv w ≠ 0
    ∨ (fieldSlot w ≠ 0 ∧ fieldOpc w ∈ [0x01, 0x04, 0x05])
    ∨ (fieldHash w ≠ 0 ∧ fieldOpc w ∉ [0x01, 0x02])
    ∨ (fieldAlg w ≠ 0 ∧ fieldOpc w ≠ 0x02)
    ∨ (fieldImm8 w ≠ 0 ∧ fieldOpc w ≠ 0x04)

/-- Decode and encode agree: every well-formed command is read back from its word, with every operand at every value
its field admits (30_encoding.md R115, R119). -/
def Obligations.DecodeOfEncodeIsTheCommand : Prop :=
  ∀ i : Instr, i.wellFormed = true → decode (encode i) = .ok i

/-- Each legal word has one meaning: what a word decodes to is well formed and encodes to that word again
(30_encoding.md R115, R119). -/
def Obligations.EncodeOfDecodeIsTheWord : Prop :=
  ∀ (w : Word) (i : Instr), decode w = .ok i → i.wellFormed = true ∧ encode i = w

/-- 30_encoding.md R119 and R112: the word of an assembler line is the disjunction of its shifted fields, decodes to
the command of that line, and a hash left out assembles as SHA1, which is the hash a zero field selects. -/
def Obligations.AssemblerLinesDecode : Prop :=
  (∀ c : AsmCommand, decode c.assemble = .ok c.instr)
    ∧ (∀ h : HashVariant, (AsmCommand.prfDerive (some h)).assemble
        = 0x01#32 ||| ((hashCode h).setWidth 32 <<< 12))
    ∧ (∀ (k : Fin 16) (a : CipherAlg) (h : HashVariant), (AsmCommand.keyDerive k a (some h)).assemble
        = 0x02#32 ||| (BitVec.ofNat 32 k <<< 8) ||| ((hashCode h).setWidth 32 <<< 12)
          ||| ((algCode a).setWidth 32 <<< 14))
    ∧ (∀ k : Fin 16, (AsmCommand.keyClear k).assemble = 0x03#32 ||| (BitVec.ofNat 32 k <<< 8))
    ∧ (∀ b : Fin 256, (AsmCommand.padFooter b).assemble = 0x04#32 ||| (BitVec.ofNat 32 b <<< 24))
    ∧ AsmCommand.padStrip.assemble = 0x05#32
    ∧ (∀ k : Fin 16, (AsmCommand.cbcEncrypt k).assemble = 0x06#32 ||| (BitVec.ofNat 32 k <<< 8)
      ∧ (AsmCommand.cbcDecrypt k).assemble = 0x07#32 ||| (BitVec.ofNat 32 k <<< 8)
      ∧ (AsmCommand.hmacSign k).assemble = 0x08#32 ||| (BitVec.ofNat 32 k <<< 8)
      ∧ (AsmCommand.hmacVerify k).assemble = 0x09#32 ||| (BitVec.ofNat 32 k <<< 8)
      ∧ (AsmCommand.protectChunk k).assemble = 0x0A#32 ||| (BitVec.ofNat 32 k <<< 8)
      ∧ (AsmCommand.unprotectChunk k).assemble = 0x0B#32 ||| (BitVec.ofNat 32 k <<< 8))
    ∧ (AsmCommand.prfDerive none).assemble = (AsmCommand.prfDerive (some .sha1)).assemble
    ∧ (∀ k a, (AsmCommand.keyDerive k a none).assemble = (AsmCommand.keyDerive k a (some .sha1)).assemble)
    ∧ selectHash 0 = .ok .sha1

/-! ### The step -/

/-- A step runs the decoded command: when it is the engine's turn and the word of CMD decodes to `i`, the step is exec
of `i`, on the state with that turn taken from the schedule (60_exceptions.md R332, R336). The order of turns is the
model's (log 2). The third clause, that a word placed by withFetchWord is run by the very next step, is the model's
alone (log 6): withFetchWord stands for the host's write to CMD, and places the word in a busy state too. -/
def Obligations.StepRunsTheDecodedCommand : Prop :=
  (∀ (s : State) (i : Instr), s.busy = true → s.turns = [] → decode s.cmd = .ok i → step s = exec i s)
    ∧ (∀ (s : State) (i : Instr) (ts : List Turn), s.busy = true → s.turns = .engine :: ts → decode s.cmd = .ok i →
        step s = exec i { s with turns := ts })
    ∧ (∀ (s : State) (w : Nat) (i : Instr), decode (BitVec.ofNat 32 w) = .ok i →
        step (s.withFetchWord 32 w) = exec i (s.accept (BitVec.ofNat 32 w)))

/-- 30_encoding.md R117: a word that matches no row completes with error ILLEGAL and changes nothing else. -/
def Obligations.IllegalWordCompletesWithIllegal : Prop :=
  ∀ (s : State) (r : IllegalWord), s.busy = true → s.turns = [] → decode s.cmd = .error r →
    ∃ t, step s = .next t ∧ s.endedWithError t .illegal ∧ s.keeps t

/-- On the host's turn, scheduled or by default, busy or not, the next operation of its list is issued
(20_memory.md R100): a write is the store of the block, a read notes the value the load of the block gives and changes
nothing of the block, and either ends the run with the bus error it draws, as an access of another width always does
(20_memory.md R85). The list and the order of turns are the model's (log 2); so is the draw that a noted read advances
(log 5). That WAIT notes no value and stays in the list while STATUS shows BUSY, and that an 8-bit value is noted with
zeros above it, is the model's reading of 30_encoding.md R120 (log 8). -/
def Obligations.HostTurnIssuesTheNextOperation : Prop :=
  ∀ (s u : State) (op : HostOp) (rest : List HostOp) (ts : List Turn), s.hostOps = op :: rest →
    ((s.turns = [] ∧ s.busy = false ∧ ts = []) ∨ s.turns = .host :: ts) →
    u = { s with turns := ts, hostOps := rest } →
    (∀ off v, op = .write32 off v → step s = outcomeOf (u.store32 off.toNat v))
    ∧ (∀ off v, op = .write8 off v → step s = outcomeOf (u.store8 off.toNat v))
    ∧ (∀ off v, op = .read32 off → s.load32 off.toNat = .ok v →
        step s = .next { u with reads := s.reads ++ [v], draw := s.draw + 1 })
    ∧ (∀ off f, op = .read32 off → s.load32 off.toNat = .error f → step s = .fault f)
    ∧ (∀ off v, op = .read8 off → s.load8 off.toNat = .ok v →
        step s = .next { u with reads := s.reads ++ [v.setWidth 32], draw := s.draw + 1 })
    ∧ (∀ off f, op = .read8 off → s.load8 off.toNat = .error f → step s = .fault f)
    ∧ (∀ off, op = .otherWidth off → step s = .fault .busErrorWidth)
    ∧ (op = .wait → s.busy = false → step s = .next u)
    ∧ (op = .wait → s.busy = true → step s = .next { s with turns := ts })

/-! ### Reset -/

/-- 10_state.md R60: every register as in the reset column of R32, every key slot empty, every `BUF` byte unwritten,
the interrupt output low; the host-visible constants ID and CAPS are those of R33 and R34. -/
def Obligations.ResetStateIsAsTheSpecSays : Prop :=
  State.reset.params = { bufAddrBits := 16, nks := 2, maxSkl := 256 }
    ∧ (∀ p : Params, (State.resetWith p).params = p)
    ∧ (∀ p : Params, ∀ r : Reg, r ≠ .id → r ≠ .caps → (State.resetWith p).readReg r = 0)
    ∧ (∀ p : Params, (State.resetWith p).readReg .id = 0x50524631#32)
    ∧ (∀ p : Params, p.legal = true →
        ((State.resetWith p).readReg .caps).toNat = p.bufAddrBits + p.nks * 2 ^ 8 + p.maxSkl * 2 ^ 16)
    ∧ State.reset.readReg .caps = 0x01000210#32
    ∧ (∀ p : Params, (State.resetWith p).slots = List.replicate p.nks KeySlot.empty)
    ∧ (∀ (p : Params) (a : Nat), (State.resetWith p).buf.read a = none)
    ∧ (∀ p : Params, (State.resetWith p).irq = false)

/-- The reset state meets the invariant, for all legal parameters (10_state.md R46, R60). -/
def Obligations.ResetMeetsTheInvariant : Prop :=
  State.reset.inv = true ∧ ∀ p : Params, p.legal = true → (State.resetWith p).inv = true

/-- 70_reset_and_hazards.md R370: asserting the reset input, in any phase, puts the block in the reset state; a
command in progress is abandoned. That the host's list, its notes, the schedule and the draw counter go on is the
model's choice (log 6). -/
def Obligations.ResetInputRestoresTheResetState : Prop :=
  ∀ (s : State) (ts : List Turn), s.turns = .reset :: ts →
    step s = .next { State.resetWith s.params with
      hostOps := s.hostOps, reads := s.reads, turns := ts, draw := s.draw }

/-! ### Invariants and whole-machine rules -/

/-- Every step keeps the invariant: the slot invariant of 10_state.md R46, the canonical memory inside `BUF` (R50), the
cleared results while busy (R43), the error code exactly while ERR is set (R36). -/
def Obligations.StepKeepsTheInvariant : Prop :=
  ∀ s t : State, s.inv = true → step s = .next t → t.inv = true

/-- 10_state.md R47 and R46: a valid slot is immutable, except that KEY_CLEAR of it and reset empty it, and only
KEY_DERIVE, KEY_CLEAR and reset write a slot at all. -/
def Obligations.ValidSlotIsImmutable : Prop :=
  ∀ s t : State, step s = .next t →
    (∀ k, (s.slot k).valid = true →
      t.slot k = s.slot k
      ∨ (t.slot k = KeySlot.empty
          ∧ (s.nextTurn.1 = .reset
            ∨ (s.nextTurn.1 = .engine ∧ s.busy = true ∧ decode s.cmd = .ok (.keyClear k)))))
    ∧ (t.slots ≠ s.slots →
      s.nextTurn.1 = .reset
      ∨ (s.nextTurn.1 = .engine ∧ s.busy = true
          ∧ ((∃ k h a, decode s.cmd = .ok (.keyDerive k h a)) ∨ ∃ k, decode s.cmd = .ok (.keyClear k))))

/-- 60_exceptions.md R339: WERR is set only by a host write while busy, which leaves ERR and ERRCODE, and is cleared
only by writing 1 to STATUS bit 4 or by reset; so it survives accepts and completions. -/
def Obligations.WriteErrorFlagIsSticky : Prop :=
  ∀ s t : State, step s = .next t →
    (s.werr = true → t.werr = false →
      s.nextTurn.1 = .reset
      ∨ (s.nextTurn.1 = .host ∧ ∃ v rest, s.hostOps = .write32 0x00C#32 v :: rest ∧ v.getLsbD 4 = true))
    ∧ (s.werr = false → t.werr = true →
      s.busy = true ∧ s.nextTurn.1 = .host ∧ (∃ op rest, s.hostOps = op :: rest ∧ op.isWrite = true)
        ∧ t.err = s.err ∧ t.errCode = s.errCode)

/-- 20_memory.md R85, 60_exceptions.md R347: the machine never refuses, and it faults exactly when the host issues an
access that R82 or R84 forbids. Among the accesses that draw no bus error are 8-bit and aligned 32-bit writes to the
key-slot window: R82 names only reads there, and that such a write is ignored and no bus error is the model's reading
of 10_state.md R38 and R48 (log 9). That a bus error is a fault of the step is log 7, whose turn it is log 2. -/
def Obligations.StepFaultsExactlyOnBusErrors : Prop :=
  ∀ s : State, (∀ r, step s ≠ .refused r)
    ∧ ((∃ f, step s = .fault f) ↔
        s.nextTurn.1 = .host ∧ ∃ op rest, s.hostOps = op :: rest ∧ op.allowed s.params = false)

/-- 60_exceptions.md R334: every command completes in its one step, whatever its operands, and so does every word of
CMD: the engine is idle and DONE set; with an error, no byte and no slot changes and RESULT_LEN and AUTH are 0; and
nothing a command may not write changes. -/
def Obligations.EveryCommandCompletes : Prop :=
  (∀ (i : Instr) (s : State), ∃ t, exec i s = .next t ∧ t.busy = false ∧ t.done = true ∧ s.keeps t
    ∧ ((t.err = false ∧ t.errCode = .noError)
      ∨ (t.errCode ≠ .noError ∧ s.endedWithError t t.errCode)))
  ∧ ∀ s : State, s.busy = true → ∃ t, s.engineTurn = .next t ∧ t.busy = false ∧ t.done = true ∧ s.keeps t
    ∧ ((t.err = false ∧ t.errCode = .noError)
      ∨ (t.errCode ≠ .noError ∧ s.endedWithError t t.errCode))

/-- 60_exceptions.md R346: a command, once accepted, completes, as long as the host draws no bus error: after at most
one step more than the schedule holds turns the engine is idle, and with DONE set if the schedule asserts no reset. A
reset abandons the command (70_reset_and_hazards.md R370). The schedule is the model's (log 2). -/
def Obligations.AcceptedCommandCompletes : Prop :=
  ∀ s : State, s.busy = true → (∀ op ∈ s.hostOps, op.allowed s.params = true) →
    ∃ (k : Nat) (t : State), k ≤ s.turns.length + 1 ∧ Host.Core.run Sys2Proof.core k s = .next t ∧ t.busy = false
      ∧ (.reset ∉ s.turns → t.done = true)

/-- 60_exceptions.md R337: no command reads CTRL, DONE, ERR or WERR: its result is the same whatever they hold. (That
the rest of a command's inputs stands as at accept is BusyHostTurnsFreezeTheCommand.) -/
def Obligations.NoCommandReadsControlOrFlags : Prop :=
  ∀ (i : Instr) (s : State) (ie done err werr : Bool), ∃ t, exec i s = .next t
    ∧ exec i { s with ctrlIE := ie, done := done, err := err, werr := werr }
        = .next { t with ctrlIE := ie, werr := werr }

/-- 41_prf.md R206: PRF_DERIVE never reads or writes a key slot and never reads KCFG0, KCFG1. -/
def Obligations.PrfDeriveIgnoresSlotsAndLengths : Prop :=
  ∀ (s : State) (hash : Nat) (slots : List KeySlot) (skl : BitVec 16) (ekl ebs sgl : BitVec 8),
    ∃ t, exec (.prfDerive hash) s = .next t ∧ t.slots = s.slots
      ∧ exec (.prfDerive hash)
          { s with slots := slots, kcfgSkl := skl, kcfgEkl := ekl, kcfgEbs := ebs, kcfgSgl := sgl }
        = .next { t with slots := slots, kcfgSkl := skl, kcfgEkl := ekl, kcfgEbs := ebs, kcfgSgl := sgl }

/-- A conforming program, which writes every byte its commands read (70_reset_and_hazards.md R376), never depends on a
free value: a command whose inputs are written has the same result whatever the draw. PAD_FOOTER and KEY_CLEAR read no
byte, and only PRF_DERIVE and KEY_DERIVE read a second input (30_encoding.md R116). The draw counter is the model's
(log 5). -/
def Obligations.WrittenInputsLeaveNothingFree : Prop :=
  ∀ (i : Instr) (s : State) (d : Nat),
    ((∃ bs, i = .padFooter bs) ∨ (∃ k, i = .keyClear k) ∨ s.sourceWritten) →
    ((∃ h, i = .prfDerive h) ∨ (∃ k h a, i = .keyDerive k h a) → s.seedWritten) →
    ∃ t, exec i s = .next t ∧ exec i { s with draw := d } = .next { t with draw := d + 1 }

/-! ### What each command does -/

/-- 41_prf.md R205: PRF_DERIVE writes the PRF stream of the secret and the seed, every input read before any output
byte is written, and changes nothing else. -/
def Obligations.PrfDeriveWritesTheStream : Prop :=
  ∀ (s : State) (h : HashVariant), s.inv = true → s.outLen ≠ 0 → s.sourceInside → s.seedInside →
    s.outputInside s.outLen.toNat →
    ∃ t, exec (.prfDerive (hashCode h).toNat) s = .next t
      ∧ (prf s.sourceBytes s.seedBytes s.outLen.toNat h).length = s.outLen.toNat
      ∧ s.wrote t s.dstAddr.toNat (prf s.sourceBytes s.seedBytes s.outLen.toNat h)
      ∧ t.slots = s.slots ∧ s.keeps t ∧ t.endedOk s.outLen.toNat false

/-- 42_key_scheduler.md R225 and R221: KEY_DERIVE slices one PRF stream into the slot, in the order signing key,
encrypting key, initialization vector, and changes nothing else. -/
def Obligations.KeyDeriveFillsTheSlot : Prop :=
  ∀ (s : State) (k : Nat) (h : HashVariant) (a : CipherAlg), s.inv = true →
    k < s.params.nks → (s.slot k).valid = false →
    s.kcfgEbs = 16 → s.kcfgEkl.toNat = klen a → s.kcfgSgl.toNat = hlen h → s.kcfgSkl.toNat ≤ s.params.maxSkl →
    s.sourceInside → s.seedInside →
    ∃ (t : State) (stream : Bytes), exec (.keyDerive k (hashCode h).toNat (algCode a).toNat) s = .next t
      ∧ stream = prf s.sourceBytes s.seedBytes (s.kcfgSkl.toNat + klen a + 16) h
      ∧ t.slots = s.slots.set k
          { valid := true, alg := a, hash := h
            skl := s.kcfgSkl, ekl := s.kcfgEkl, ebs := s.kcfgEbs, sgl := s.kcfgSgl
            sk := stream.take s.kcfgSkl.toNat
            ek := (stream.drop s.kcfgSkl.toNat).take (klen a)
            iv := (stream.drop (s.kcfgSkl.toNat + klen a)).take 16 }
      ∧ s.sameBuf t ∧ s.keeps t ∧ t.endedOk (s.kcfgSkl.toNat + klen a + 16) false

/-- 42_key_scheduler.md R230, R231: KEY_CLEAR empties its slot, valid or not, touches no other slot and changes
nothing else. -/
def Obligations.KeyClearEmptiesTheSlot : Prop :=
  ∀ (s : State) (k : Nat), s.inv = true → k < s.params.nks →
    ∃ t, exec (.keyClear k) s = .next t ∧ t.slot k = KeySlot.empty ∧ (∀ j, j ≠ k → t.slot j = s.slot j)
      ∧ t.slots.length = s.slots.length ∧ s.sameBuf t ∧ s.keeps t ∧ t.endedOk 0 false

/-- 43_padding.md R252: PAD_FOOTER writes `ps + 1` bytes of value `ps`, with
`ps = bs - ((SRC_LEN + 1) mod bs)`, and changes nothing else. -/
def Obligations.PadFooterWritesTheFooter : Prop :=
  ∀ (s : State) (bs ps : Nat), s.inv = true → 1 ≤ bs → bs ≤ 255 → ps = bs - (s.srcLen.toNat + 1) % bs →
    s.outputInside (ps + 1) →
    ∃ t, exec (.padFooter bs) s = .next t
      ∧ s.wrote t s.dstAddr.toNat (List.replicate (ps + 1) (BitVec.ofNat 8 ps))
      ∧ 1 ≤ ps ∧ ps ≤ 255
      ∧ t.slots = s.slots ∧ s.keeps t ∧ t.endedOk (ps + 1) false

/-- 43_padding.md R256, R255: PAD_STRIP reads the last byte as `n`, reports `SRC_LEN - (n + 1)` and writes nothing. -/
def Obligations.PadStripReportsTheLength : Prop :=
  ∀ (s : State) (n : Nat), s.inv = true → s.sourceInside → s.srcLen ≠ 0 →
    n = (s.byteAt firstPort (s.srcAddr.toNat + s.srcLen.toNat - 1)).toNat → n + 1 ≤ s.srcLen.toNat →
    ∃ t, exec .padStrip s = .next t ∧ s.sameBuf t ∧ t.slots = s.slots ∧ s.keeps t
      ∧ t.endedOk (s.srcLen.toNat - (n + 1)) false

/-- 44_cbc_cipher.md R272: CBC_ENCRYPT writes the CBC encryption of whole blocks under the slot's key and IV, and
changes nothing else. -/
def Obligations.CbcEncryptWritesTheCiphertext : Prop :=
  ∀ (s : State) (k : Nat), s.inv = true → s.keyed k → s.sourceInside → s.srcLen.toNat % 16 = 0 →
    s.outputInside s.srcLen.toNat →
    ∃ t, exec (.cbcEncrypt k) s = .next t
      ∧ (cbcEnc (s.slot k).ek (s.slot k).iv s.sourceBytes).length = s.srcLen.toNat
      ∧ s.wrote t s.dstAddr.toNat (cbcEnc (s.slot k).ek (s.slot k).iv s.sourceBytes)
      ∧ t.slots = s.slots ∧ s.keeps t ∧ t.endedOk s.srcLen.toNat false

/-- 44_cbc_cipher.md R276: CBC_DECRYPT writes the CBC decryption of whole blocks under the slot's key and IV, and
changes nothing else. -/
def Obligations.CbcDecryptWritesThePlaintext : Prop :=
  ∀ (s : State) (k : Nat), s.inv = true → s.keyed k → s.sourceInside → s.srcLen.toNat % 16 = 0 →
    s.outputInside s.srcLen.toNat →
    ∃ t, exec (.cbcDecrypt k) s = .next t
      ∧ (cbcDec (s.slot k).ek (s.slot k).iv s.sourceBytes).length = s.srcLen.toNat
      ∧ s.wrote t s.dstAddr.toNat (cbcDec (s.slot k).ek (s.slot k).iv s.sourceBytes)
      ∧ t.slots = s.slots ∧ s.keeps t ∧ t.endedOk s.srcLen.toNat false

/-- 45_hmac_signature.md R292: HMAC_SIGN writes the SGL bytes of the HMAC of the message under the slot's signing key
and hash, and changes nothing else. -/
def Obligations.HmacSignWritesTheSignature : Prop :=
  ∀ (s : State) (k : Nat), s.inv = true → s.keyed k → s.sourceInside → s.outputInside (s.slot k).sgl.toNat →
    ∃ t, exec (.hmacSign k) s = .next t
      ∧ (hmac (s.slot k).hash (s.slot k).sk s.sourceBytes).length = (s.slot k).sgl.toNat
      ∧ s.wrote t s.dstAddr.toNat (hmac (s.slot k).hash (s.slot k).sk s.sourceBytes)
      ∧ t.slots = s.slots ∧ s.keeps t ∧ t.endedOk (s.slot k).sgl.toNat false

/-- 45_hmac_signature.md R296: HMAC_VERIFY compares all of the last SGL bytes with the HMAC of the bytes before them,
leaves the result in AUTH and the message length in RESULT_LEN, and writes nothing. A mismatch is no error. -/
def Obligations.HmacVerifyReportsTheVerdict : Prop :=
  ∀ (s : State) (k n : Nat), s.inv = true → s.keyed k → s.sourceInside →
    s.srcLen.toNat = n + (s.slot k).sgl.toNat →
    ∃ t, exec (.hmacVerify k) s = .next t ∧ s.sameBuf t ∧ t.slots = s.slots ∧ s.keeps t
      ∧ t.endedOk n
          (decide (hmac (s.slot k).hash (s.slot k).sk (s.sourceBytes.take n) = s.sourceBytes.drop n))

/-- 46_chunk_pipeline.md R312, R313, R314: PROTECT_CHUNK writes the encryption of plaintext, signature and footer, of
`L + g + ps + 1` bytes, and changes nothing else. -/
def Obligations.ProtectChunkWritesTheChunk : Prop :=
  ∀ (s : State) (k ps : Nat) (sig : Bytes), s.inv = true → s.keyed k → s.sourceInside →
    sig = hmac (s.slot k).hash (s.slot k).sk s.sourceBytes →
    ps = 16 - (s.srcLen.toNat + (s.slot k).sgl.toNat + 1) % 16 →
    s.outputInside (s.srcLen.toNat + (s.slot k).sgl.toNat + ps + 1) →
    ∃ (t : State) (chunk : Bytes), exec (.protectChunk k) s = .next t
      ∧ chunk = cbcEnc (s.slot k).ek (s.slot k).iv
          (s.sourceBytes ++ sig ++ List.replicate (ps + 1) (BitVec.ofNat 8 ps))
      ∧ chunk.length = s.srcLen.toNat + (s.slot k).sgl.toNat + ps + 1 ∧ chunk.length % 16 = 0
      ∧ s.wrote t s.dstAddr.toNat chunk
      ∧ t.slots = s.slots ∧ s.keeps t ∧ t.endedOk (s.srcLen.toNat + (s.slot k).sgl.toNat + ps + 1) false

/-- 46_chunk_pipeline.md R316: UNPROTECT_CHUNK decrypts, strips the footer its last byte gives, splits off the last SGL
bytes, writes the message whatever the verdict, and leaves the verdict in AUTH. `n` is the footer byte and `m` the
length of the message. -/
def Obligations.UnprotectChunkWritesTheMessage : Prop :=
  ∀ (s : State) (k n m : Nat) (padded : Bytes), s.inv = true → s.keyed k → s.sourceInside →
    s.srcLen.toNat % 16 = 0 → s.srcLen ≠ 0 →
    padded = cbcDec (s.slot k).ek (s.slot k).iv s.sourceBytes →
    padded[s.srcLen.toNat - 1]? = some (BitVec.ofNat 8 n) → n < 256 →
    s.srcLen.toNat = m + (s.slot k).sgl.toNat + (n + 1) →
    s.outputInside m →
    ∃ t, exec (.unprotectChunk k) s = .next t
      ∧ s.wrote t s.dstAddr.toNat (padded.take m) ∧ (padded.take m).length = m
      ∧ t.slots = s.slots ∧ s.keeps t
      ∧ t.endedOk m
          (decide (hmac (s.slot k).hash (s.slot k).sk (padded.take m)
            = (padded.drop m).take (s.slot k).sgl.toNat))

/-! ### Which error a command ends with -/

/-- 41_prf.md R205, 60_exceptions.md R333: the errors of PRF_DERIVE, the first that applies in this order. -/
def Obligations.PrfDeriveErrorOrder : Prop :=
  ∀ (s : State) (hash : Nat), ∃ t, exec (.prfDerive hash) s = .next t
    ∧ s.endedAs t
        (if 1 < hash then .config
          else if s.outLen = 0 then .config
          else if ¬ s.srcAddr.toNat + s.srcLen.toNat ≤ s.params.bufSize then .bounds
          else if ¬ s.seedAddr.toNat + s.seedLen.toNat ≤ s.params.bufSize then .bounds
          else if ¬ s.dstAddr.toNat + s.outLen.toNat ≤ s.params.bufSize then .bounds
          else .noError)

/-- 42_key_scheduler.md R225, R226, 60_exceptions.md R333: the errors of KEY_DERIVE, the first that applies in this
order. The lengths are compared with those of the algorithm (`alg = 0`: 16, else 32) and of the hash (`hash = 0`: 20,
else 32). -/
def Obligations.KeyDeriveErrorOrder : Prop :=
  ∀ (s : State) (slot hash alg : Nat), ∃ t, exec (.keyDerive slot hash alg) s = .next t
    ∧ s.endedAs t
        (if 1 < hash then .config
          else if 1 < alg then .config
          else if s.params.nks ≤ slot then .config
          else if (s.slot slot).valid = true then .slotInUse
          else if s.kcfgEbs.toNat ≠ 16 ∨ s.kcfgEkl.toNat ≠ (if alg = 0 then 16 else 32)
              ∨ s.kcfgSgl.toNat ≠ (if hash = 0 then 20 else 32) ∨ s.params.maxSkl < s.kcfgSkl.toNat then .config
          else if ¬ s.srcAddr.toNat + s.srcLen.toNat ≤ s.params.bufSize then .bounds
          else if ¬ s.seedAddr.toNat + s.seedLen.toNat ≤ s.params.bufSize then .bounds
          else .noError)

/-- 42_key_scheduler.md R230 and 43_padding.md R252, R256: the errors of KEY_CLEAR, PAD_FOOTER and PAD_STRIP, the first
that applies in each order. -/
def Obligations.ClearAndPaddingErrorOrder : Prop :=
  ∀ s : State,
    (∀ slot, ∃ t, exec (.keyClear slot) s = .next t
      ∧ s.endedAs t (if s.params.nks ≤ slot then .config else .noError))
    ∧ (∀ bs, ∃ t, exec (.padFooter bs) s = .next t
      ∧ s.endedAs t
          (if bs = 0 then .config
            else if ¬ s.dstAddr.toNat + (bs - (s.srcLen.toNat + 1) % bs + 1) ≤ s.params.bufSize then .bounds
            else .noError))
    ∧ (∃ t, exec .padStrip s = .next t
      ∧ s.endedAs t
          (if ¬ s.srcAddr.toNat + s.srcLen.toNat ≤ s.params.bufSize then .bounds
            else if s.srcLen = 0 then .protocol
            else if s.srcLen.toNat
              < (s.byteAt firstPort (s.srcAddr.toNat + s.srcLen.toNat - 1)).toNat + 1 then .protocol
            else .noError))

/-- 44_cbc_cipher.md R272, R276 and 45_hmac_signature.md R292, R296: the errors of the cipher and signature commands,
the first that applies in each order. -/
def Obligations.CipherAndSignatureErrorOrder : Prop :=
  ∀ (s : State) (slot : Nat), s.inv = true →
    (∀ i : Instr, i = .cbcEncrypt slot ∨ i = .cbcDecrypt slot →
      ∃ t, exec i s = .next t
        ∧ s.endedAs t
            (if s.params.nks ≤ slot then .config
              else if (s.slot slot).valid = false then .noKey
              else if ¬ s.srcAddr.toNat + s.srcLen.toNat ≤ s.params.bufSize then .bounds
              else if s.srcLen.toNat % 16 ≠ 0 then .protocol
              else if ¬ s.dstAddr.toNat + s.srcLen.toNat ≤ s.params.bufSize then .bounds
              else .noError))
    ∧ (∃ t, exec (.hmacSign slot) s = .next t
        ∧ s.endedAs t
            (if s.params.nks ≤ slot then .config
              else if (s.slot slot).valid = false then .noKey
              else if ¬ s.srcAddr.toNat + s.srcLen.toNat ≤ s.params.bufSize then .bounds
              else if ¬ s.dstAddr.toNat + (s.slot slot).sgl.toNat ≤ s.params.bufSize then .bounds
              else .noError))
    ∧ (∃ t, exec (.hmacVerify slot) s = .next t
        ∧ s.endedAs t
            (if s.params.nks ≤ slot then .config
              else if (s.slot slot).valid = false then .noKey
              else if ¬ s.srcAddr.toNat + s.srcLen.toNat ≤ s.params.bufSize then .bounds
              else if s.srcLen.toNat < (s.slot slot).sgl.toNat then .protocol
              else .noError))

/-- 46_chunk_pipeline.md R312, R316, R315: the errors of PROTECT_CHUNK and UNPROTECT_CHUNK, the first that applies in
each order. No length of plaintext is a protocol error of PROTECT_CHUNK. `g` is SGL, `n` the length of the signed
plaintext, and `f` the last decrypted byte. -/
def Obligations.ChunkErrorOrder : Prop :=
  ∀ (s : State) (slot g n f : Nat), s.inv = true → g = (s.slot slot).sgl.toNat → n = s.srcLen.toNat + g →
    f = ((cbcDec (s.slot slot).ek (s.slot slot).iv s.sourceBytes).getLastD 0).toNat →
    (∃ t, exec (.protectChunk slot) s = .next t
      ∧ s.endedAs t
          (if s.params.nks ≤ slot then .config
            else if (s.slot slot).valid = false then .noKey
            else if ¬ s.srcAddr.toNat + s.srcLen.toNat ≤ s.params.bufSize then .bounds
            else if ¬ s.dstAddr.toNat + (n + (16 - (n + 1) % 16) + 1) ≤ s.params.bufSize then .bounds
            else .noError))
    ∧ (∃ t, exec (.unprotectChunk slot) s = .next t
      ∧ s.endedAs t
          (if s.params.nks ≤ slot then .config
            else if (s.slot slot).valid = false then .noKey
            else if ¬ s.srcAddr.toNat + s.srcLen.toNat ≤ s.params.bufSize then .bounds
            else if s.srcLen.toNat % 16 ≠ 0 then .protocol
            else if s.srcLen = 0 then .protocol
            else if s.srcLen.toNat < f + 1 then .protocol
            else if s.srcLen.toNat - (f + 1) < g then .protocol
            else if ¬ s.dstAddr.toNat + (s.srcLen.toNat - (f + 1) - g) ≤ s.params.bufSize then .bounds
            else .noError))

/-! ### The algorithms -/

/-- 41_prf.md R202: the PRF stream has exactly the requested length, and a shorter request is a prefix of a longer
one. -/
def Obligations.PrfStreamsAreConsistent : Prop :=
  ∀ (secret seed : Bytes) (h : HashVariant) (m n : Nat), 1 ≤ m →
    (prf secret seed m h).length = m ∧ (m < n → prf secret seed m h <+: prf secret seed n h)

/-- 41_prf.md R200, R201: the PRF is the first `n` bytes of its blocks, of which there are `ceil(n / hlen(h))`; each is
the HMAC of `A(i) ‖ seed`, where `A(i)` is the `i`-fold HMAC of the seed under the secret. -/
def Obligations.PrfIsItsBlocks : Prop :=
  ∀ (secret seed blocks : Bytes) (h : HashVariant) (n : Nat), 1 ≤ n →
    blocks = (List.range ((n + hlen h - 1) / hlen h)).flatMap (fun i =>
      hmac h secret ((hmac h secret)^[i + 1] seed ++ seed)) →
    prf secret seed n h = blocks.take n ∧ n ≤ blocks.length ∧ blocks.length < n + hlen h

/-- 43_padding.md R250, R251: the footer is `ps + 1` bytes of value `ps`, with `ps = bs - ((n + 1) mod bs)` between 1 and
the block size, and aligns the padded buffer; a buffer one byte short of a block gets a whole extra block and one byte;
and what the footers for block size 16 are at the three residues the rule lists. -/
def Obligations.FooterAlignsTheBuffer : Prop :=
  (∀ n bs ps : Nat, 1 ≤ bs → ps = bs - (n + 1) % bs →
    computeFooter n bs = List.replicate (ps + 1) (BitVec.ofNat 8 ps)
    ∧ 1 ≤ ps ∧ ps ≤ bs ∧ (n + ps + 1) % bs = 0
    ∧ 2 ≤ (computeFooter n bs).length ∧ (computeFooter n bs).length ≤ bs + 1
    ∧ ((n + 1) % bs = 0 → computeFooter n bs = List.replicate (bs + 1) (BitVec.ofNat 8 bs)))
  ∧ ∀ n : Nat, (n % 16 = 14 → computeFooter n 16 = List.replicate 2 0x01)
    ∧ (n % 16 = 15 → computeFooter n 16 = List.replicate 17 0x10)
    ∧ (n % 16 = 0 → computeFooter n 16 = List.replicate 16 0x0F)

/-- 43_padding.md R257: stripFooter is the exact inverse of computeFooter. -/
def Obligations.StripFooterInvertsComputeFooter : Prop :=
  ∀ (b : Bytes) (bs : Nat), 1 ≤ bs → bs ≤ 255 → stripFooter (b ++ computeFooter b.length bs) = .ok b

/-- 40_primitives.md R157, R159, R160: SBOX is the affine transform with constant 0x63 of the inverse in GF(2^8), with
the inverse of 0 taken as 0, every other byte has an inverse, and INV_SBOX inverts SBOX. -/
def Obligations.SubstitutionTablesAreTheirDefinition : Prop :=
  (∀ x b : Byte, (x = 0 ∧ b = 0) ∨ gfMul x b = 1 → ∀ i, i < 8 →
      (sbox x).getLsbD i = (b.getLsbD i ^^ b.getLsbD ((i + 4) % 8) ^^ b.getLsbD ((i + 5) % 8)
        ^^ b.getLsbD ((i + 6) % 8) ^^ b.getLsbD ((i + 7) % 8) ^^ (0x63#8).getLsbD i))
    ∧ (∀ x : Byte, x ≠ 0 → ∃ b : Byte, gfMul x b = 1)
    ∧ (∀ x : Byte, invSbox (sbox x) = x) ∧ ∀ x : Byte, sbox (invSbox x) = x

/-- 40_primitives.md R166: AES_Dec inverts AES_Enc, for both key lengths of R156. -/
def Obligations.AesDecryptionInvertsEncryption : Prop :=
  ∀ key blk : Bytes, key.length = 16 ∨ key.length = 32 → blk.length = 16 →
    (aesEnc key blk).length = 16 ∧ aesDec key (aesEnc key blk) = blk

/-- 40_primitives.md R167 to R169: CBC output is as long as its input, and decryption under the same key and IV gives
the plaintext back (44_cbc_cipher.md R276). -/
def Obligations.CbcDecryptionInvertsEncryption : Prop :=
  ∀ key iv p : Bytes, key.length = 16 ∨ key.length = 32 → iv.length = 16 → p.length % 16 = 0 →
    (cbcEnc key iv p).length = p.length ∧ (cbcDec key iv p).length = p.length
      ∧ cbcDec key iv (cbcEnc key iv p) = p

/-! ### Commands in sequence -/

/-- 45_hmac_signature.md R296: `verify(sign(M, K), K)` is true for all `M, K`: a signature written directly after its
message verifies, with the message length in RESULT_LEN. -/
def Obligations.SignedMessageVerifies : Prop :=
  ∀ (s : State) (k n : Nat), s.inv = true → s.keyed k → s.sourceWritten →
    n = s.srcLen.toNat + (s.slot k).sgl.toNat → s.srcAddr.toNat + n ≤ s.params.bufSize →
    ∃ t u, exec (.hmacSign k) { s with dstAddr := s.srcAddr + s.srcLen } = .next t
      ∧ exec (.hmacVerify k) { t with srcLen := BitVec.ofNat 32 n } = .next u
      ∧ u.endedOk s.srcLen.toNat true

/-- 46_chunk_pipeline.md R317: PROTECT_CHUNK then UNPROTECT_CHUNK on its output returns the plaintext with AUTH = 1,
for every plaintext with room in `BUF` and every valid slot, wherever the two outputs are placed. -/
def Obligations.UnprotectInvertsProtect : Prop :=
  ∀ (s : State) (k n : Nat) (dst : Word), s.inv = true → s.keyed k → s.sourceInside →
    n = s.srcLen.toNat + (s.slot k).sgl.toNat →
    s.outputInside (n + (16 - (n + 1) % 16) + 1) → dst.toNat + s.srcLen.toNat ≤ s.params.bufSize →
    ∃ t u, exec (.protectChunk k) s = .next t
      ∧ exec (.unprotectChunk k) { t with srcAddr := s.dstAddr, srcLen := t.resultLen, dstAddr := dst } = .next u
      ∧ u.endedOk s.srcLen.toNat true
      ∧ ∀ i, i < s.srcLen.toNat → u.buf.read (dst.toNat + i) = s.sourceBytes[i]?

/-- 70_reset_and_hazards.md R384: HMAC_SIGN of the plaintext, the signature directly after it, PAD_FOOTER directly after
that, then CBC_ENCRYPT of the whole give the chunk PROTECT_CHUNK writes. -/
def Obligations.UnitCommandsBuildTheChunk : Prop :=
  ∀ (s : State) (k n len : Nat), s.inv = true → s.keyed k → s.sourceWritten →
    n = s.srcLen.toNat + (s.slot k).sgl.toNat → len = n + (16 - (n + 1) % 16) + 1 →
    s.srcAddr.toNat + len ≤ s.params.bufSize → s.outputInside len →
    ∃ s1 s2 s3 t, exec (.hmacSign k) { s with dstAddr := s.srcAddr + s.srcLen } = .next s1
      ∧ exec (.padFooter 16)
          { s1 with srcLen := BitVec.ofNat 32 n, dstAddr := s.srcAddr + BitVec.ofNat 32 n } = .next s2
      ∧ exec (.cbcEncrypt k) { s2 with srcLen := BitVec.ofNat 32 len, dstAddr := s.dstAddr } = .next s3
      ∧ exec (.protectChunk k) s = .next t
      ∧ s3.endedOk len false ∧ t.endedOk len false
      ∧ ∀ i, i < len → s3.buf.read (s.dstAddr.toNat + i) = t.buf.read (s.dstAddr.toNat + i)
          ∧ (t.buf.read (s.dstAddr.toNat + i)).isSome = true

/-! ### The host bus -/

/-- 10_state.md R33, R34: ID and CAPS read their constants in every state, and writes to them are ignored. -/
def Obligations.IdentityRegistersAreReadOnly : Prop :=
  ∀ (s : State) (v : Word), s.params.legal = true →
    s.load32 0x000 = .ok 0x50524631#32
    ∧ (∃ c, s.load32 0x004 = .ok c
        ∧ c.toNat = s.params.bufAddrBits + s.params.nks * 2 ^ 8 + s.params.maxSkl * 2 ^ 16
        ∧ (s.params = Params.default → c = 0x01000210#32))
    ∧ s.store32 0x000 v = .ok s ∧ s.store32 0x004 v = .ok s

/-- 10_state.md R32: what each register reads as, bit by bit as numbers, and 0 at every offset the table does not
list. -/
def Obligations.RegisterPageReadsAsTheTable : Prop :=
  ∀ s : State,
    (∃ c, s.load32 0x008 = .ok c ∧ c.toNat = s.ctrlIE.toNat)
    ∧ (∃ c, s.load32 0x00C = .ok c
        ∧ c.toNat = s.busy.toNat + 2 * s.done.toNat + 4 * s.err.toNat + 8 * s.auth.toNat + 16 * s.werr.toNat
            + 256 * s.errCode.code.toNat)
    ∧ s.load32 0x010 = .ok s.cmd
    ∧ s.load32 0x014 = .ok s.srcAddr ∧ s.load32 0x018 = .ok s.srcLen
    ∧ s.load32 0x01C = .ok s.seedAddr ∧ s.load32 0x020 = .ok s.seedLen
    ∧ s.load32 0x024 = .ok s.dstAddr ∧ s.load32 0x028 = .ok s.outLen
    ∧ (∃ c, s.load32 0x02C = .ok c ∧ c.toNat = s.kcfgSkl.toNat)
    ∧ (∃ c, s.load32 0x030 = .ok c
        ∧ c.toNat = s.kcfgEkl.toNat + 2 ^ 8 * s.kcfgEbs.toNat + 2 ^ 16 * s.kcfgSgl.toNat)
    ∧ s.load32 0x034 = .ok s.resultLen
    ∧ ∀ off, 0x038 ≤ off → off < 0x1000 → off % 4 = 0 → s.load32 off = .ok 0

/-- 10_state.md R39, R40: an idle write to an operand register stores all 32 bits and is read back; a write to KCFG0 or
KCFG1 stores the defined fields and reads back with the reserved bits zero; nothing else changes. -/
def Obligations.OperandWritesAreStored : Prop :=
  ∀ (s : State) (v : Word), s.busy = false →
    (s.store32 0x014 v = .ok { s with srcAddr := v } ∧ s.store32 0x018 v = .ok { s with srcLen := v }
      ∧ s.store32 0x01C v = .ok { s with seedAddr := v } ∧ s.store32 0x020 v = .ok { s with seedLen := v }
      ∧ s.store32 0x024 v = .ok { s with dstAddr := v } ∧ s.store32 0x028 v = .ok { s with outLen := v })
    ∧ (∀ off ∈ [0x014, 0x018, 0x01C, 0x020, 0x024, 0x028],
        ∃ t, s.store32 off v = .ok t ∧ t.load32 off = .ok v)
    ∧ (∃ t, s.store32 0x02C v = .ok t ∧ t.load32 0x02C = .ok (v &&& 0x0000FFFF#32)
        ∧ t = { s with kcfgSkl := t.kcfgSkl })
    ∧ ∃ t, s.store32 0x030 v = .ok t ∧ t.load32 0x030 = .ok (v &&& 0x00FFFFFF#32)
        ∧ t = { s with kcfgEkl := t.kcfgEkl, kcfgEbs := t.kcfgEbs, kcfgSgl := t.kcfgSgl }

/-- 10_state.md R35: a write to CTRL stores bit 0 as IE and nothing of the other bits, at once and also while busy, and
IE gates the interrupt. -/
def Obligations.ControlWriteSetsTheEnable : Prop :=
  ∀ (s : State) (v : Word), ∃ t, s.store32 0x008 v = .ok t ∧ t = { s with ctrlIE := v.getLsbD 0 }
    ∧ t.load32 0x008 = .ok (v &&& 1#32) ∧ t.irq = (v.getLsbD 0 && s.done)

/-- 10_state.md R37: a write to STATUS clears DONE by bit 1, ERR with ERRCODE by bit 2, WERR by bit 4, and changes
nothing else, also while busy. -/
def Obligations.StatusWriteClearsByOnes : Prop :=
  ∀ (s : State) (v : Word), ∃ t, s.store32 0x00C v = .ok t
    ∧ t = { s with done := t.done, err := t.err, errCode := t.errCode, werr := t.werr }
    ∧ (t.done = if v.getLsbD 1 then false else s.done)
    ∧ (t.err = if v.getLsbD 2 then false else s.err)
    ∧ (t.errCode = if v.getLsbD 2 then .noError else s.errCode)
    ∧ (t.werr = if v.getLsbD 4 then false else s.werr)

/-- 10_state.md R42: a write to CMD of an idle engine is accepted, whatever the word: BUSY is set, DONE, ERR, ERRCODE,
AUTH and RESULT_LEN are cleared, WERR and CTRL are unchanged, CMD reads the word, and an undefined word ends with
ILLEGAL at its completion. -/
def Obligations.CommandWriteIsAccepted : Prop :=
  ∀ (s : State) (v : Word), s.busy = false → ∃ t, s.store32 0x010 v = .ok t
    ∧ t = { s with
        cmd := v, busy := true, done := false, err := false, errCode := .noError, auth := false, resultLen := 0 }
    ∧ t.load32 0x010 = .ok v
    ∧ ∀ r, decode v = .error r → ∃ u, t.engineTurn = .next u ∧ t.endedWithError u .illegal

/-- 10_state.md R38: while the engine is busy a write to CMD, an operand register or `BUF` changes nothing but sets
WERR; writes to read-only registers, reserved offsets and the key-slot window are ignored whether busy or not and do
not set WERR; and writes to CTRL and STATUS are performed as when idle (R35, R37). -/
def Obligations.BusyWritesAreDropped : Prop :=
  ∀ (s : State) (v : Word) (b : Byte),
    (s.busy = true → ∀ off ∈ [0x010, 0x014, 0x018, 0x01C, 0x020, 0x024, 0x028, 0x02C, 0x030],
      s.store32 off v = .ok { s with werr := true })
    ∧ (s.busy = true → ∀ a, a < s.params.bufSize →
      s.store8 (0x10000 + a) b = .ok { s with werr := true }
      ∧ (a % 4 = 0 → s.store32 (0x10000 + a) v = .ok { s with werr := true }))
    ∧ (∀ off, off % 4 = 0 → (off ∈ [0x000, 0x004, 0x034] ∨ (0x038 ≤ off ∧ off < 0x5000)) → s.store32 off v = .ok s)
    ∧ (∀ off, 0x1000 ≤ off → off < 0x5000 → s.store8 off b = .ok s)
    ∧ s.store32 0x008 v = .ok { s with ctrlIE := v.getLsbD 0 }
    ∧ s.store32 0x00C v = .ok { s with
        done := if v.getLsbD 1 then false else s.done, err := if v.getLsbD 2 then false else s.err
        errCode := if v.getLsbD 2 then .noError else s.errCode, werr := if v.getLsbD 4 then false else s.werr }

/-- While busy, a host turn changes no command input: CMD, the operand registers, KCFG0, KCFG1, the slots and every byte
of `BUF` stand as at accept, and the engine stays busy (10_state.md R38, 60_exceptions.md R337). -/
def Obligations.BusyHostTurnsFreezeTheCommand : Prop :=
  ∀ s t : State, s.busy = true → s.nextTurn.1 = .host → step s = .next t →
    t.busy = true ∧ t.cmd = s.cmd ∧ t.srcAddr = s.srcAddr ∧ t.srcLen = s.srcLen
    ∧ t.seedAddr = s.seedAddr ∧ t.seedLen = s.seedLen ∧ t.dstAddr = s.dstAddr ∧ t.outLen = s.outLen
    ∧ t.kcfgSkl = s.kcfgSkl ∧ t.kcfgEkl = s.kcfgEkl ∧ t.kcfgEbs = s.kcfgEbs ∧ t.kcfgSgl = s.kcfgSgl
    ∧ t.params = s.params ∧ t.slots = s.slots ∧ t.buf = s.buf
    ∧ t.auth = s.auth ∧ t.resultLen = s.resultLen

/-- 10_state.md R43: while busy STATUS reads BUSY = 1, every other field 0 but the current WERR, and RESULT_LEN reads
0. -/
def Obligations.BusyStatusShowsNoResult : Prop :=
  ∀ s : State, s.inv = true → s.busy = true →
    (∃ c, s.load32 0x00C = .ok c ∧ c.toNat = 1 + 16 * s.werr.toNat) ∧ s.load32 0x034 = .ok 0

/-- 10_state.md R48: the key-slot window of an idle engine, word by word and byte by byte; slots from NKS on read as
zero; every 32-bit read is the four 8-bit reads of its bytes, the lowest address in the lowest bits, so that each field
is given at both widths; and writes to the window are ignored. -/
def Obligations.KeyWindowShowsTheSlot : Prop :=
  ∀ (s : State) (k base : Nat), s.busy = false → k < 16 → base = 0x1000 + 0x400 * k →
    (k < s.params.nks →
      (∃ c, s.load32 base = .ok c
        ∧ c.toNat = (s.slot k).valid.toNat + 2 ^ 8 * (algCode (s.slot k).alg).toNat
            + 2 ^ 12 * (hashCode (s.slot k).hash).toNat)
      ∧ (∃ c, s.load32 (base + 0x004) = .ok c ∧ c.toNat = (s.slot k).skl.toNat)
      ∧ (∃ c, s.load32 (base + 0x008) = .ok c
        ∧ c.toNat = (s.slot k).ekl.toNat + 2 ^ 8 * (s.slot k).ebs.toNat + 2 ^ 16 * (s.slot k).sgl.toNat)
      ∧ s.load32 (base + 0x00C) = .ok 0
      ∧ (∀ i, i < 16 → s.load8 (base + 0x010 + i)
          = .ok (if i < (s.slot k).ebs.toNat then (s.slot k).iv.getD i 0 else 0))
      ∧ (∀ i, i < 32 → s.load8 (base + 0x020 + i)
          = .ok (if i < (s.slot k).ekl.toNat then (s.slot k).ek.getD i 0 else 0))
      ∧ (∀ i, i < 960 → s.load8 (base + 0x040 + i)
          = .ok (if i < (s.slot k).skl.toNat then (s.slot k).sk.getD i 0 else 0)))
    ∧ (s.params.nks ≤ k → ∀ j, j < 0x400 → s.load8 (base + j) = .ok 0
        ∧ (j % 4 = 0 → s.load32 (base + j) = .ok 0))
    ∧ (∀ j, j < 0x400 → j % 4 = 0 → ∃ c, s.load32 (base + j) = .ok c
        ∧ ∀ i, i < 4 → s.load8 (base + j + i) = .ok (c.extractLsb' (8 * i) 8))
    ∧ ∀ (j : Nat) (v : Word) (b : Byte), j < 0x400 → s.store8 (base + j) b = .ok s
        ∧ (j % 4 = 0 → s.store32 (base + j) v = .ok s)

/-- 20_memory.md R80, R82, R83: the accesses of an idle engine's `BUF`. An aligned 32-bit write stores four bytes at
once, byte `i` of the word at address `a + i`, and an 8-bit write at any address stores that byte; 8-bit and 32-bit
reads return them, and return the bytes written before in the same way; every other byte, and everything else, is
unchanged. -/
def Obligations.BufferWordsAreLittleEndian : Prop :=
  ∀ (s : State) (a : Nat), s.busy = false →
    (∀ v : Word, a % 4 = 0 → a + 4 ≤ s.params.bufSize →
      ∃ t, s.store32 (0x10000 + a) v = .ok t ∧ t = { s with buf := t.buf }
        ∧ (∀ i, i < 4 → t.buf.read (a + i) = some (v.extractLsb' (8 * i) 8)
            ∧ t.load8 (0x10000 + a + i) = .ok (v.extractLsb' (8 * i) 8))
        ∧ t.load32 (0x10000 + a) = .ok v
        ∧ ∀ c, c < a ∨ a + 4 ≤ c → t.buf.read c = s.buf.read c)
    ∧ (∀ b : Byte, a < s.params.bufSize →
      ∃ t, s.store8 (0x10000 + a) b = .ok t ∧ t = { s with buf := t.buf }
        ∧ t.buf.read a = some b ∧ t.load8 (0x10000 + a) = .ok b
        ∧ ∀ c, c ≠ a → t.buf.read c = s.buf.read c)
    ∧ (∀ b : Byte, a < s.params.bufSize → s.buf.read a = some b → s.load8 (0x10000 + a) = .ok b)
    ∧ ∀ v : Word, a % 4 = 0 → a + 4 ≤ s.params.bufSize →
      (∀ i, i < 4 → s.buf.read (a + i) = some (v.extractLsb' (8 * i) 8)) → s.load32 (0x10000 + a) = .ok v

/-- 20_memory.md R83: host reads, and WAIT, have no side effects on the block, busy or not. -/
def Obligations.HostReadsLeaveTheBlock : Prop :=
  ∀ (s t : State) (op : HostOp) (rest : List HostOp), s.nextTurn.1 = .host → s.hostOps = op :: rest →
    op.isWrite = false → step s = .next t → s.sameBlock t

/-- 60_exceptions.md R345: IRQ is CTRL.IE and DONE: every completion raises it while IE is set, and writing 1 to STATUS
bit 1, or the next accept, lowers it. -/
def Obligations.InterruptFollowsDone : Prop :=
  (∀ (s : State) (t : State), s.busy = true → s.engineTurn = .next t → t.irq = s.ctrlIE)
    ∧ (∀ s : State, s.irq = true ↔ s.ctrlIE = true ∧ s.done = true)
    ∧ (∀ (s t : State) (v : Word), s.store32 0x00C v = .ok t → v.getLsbD 1 = true → t.irq = false)
    ∧ ∀ (s t : State) (v : Word), s.busy = false → s.store32 0x010 v = .ok t → t.irq = false
end

