-- ==== Sys2Proof/Laws/Memory.lean ====
section
/-! SUPPORT. The laws of the buffer memory: a read after a write, and the canonical form kept by every write. -/

namespace Sys2Proof.Machine

/-! ### Reads after writes -/

@[simp] theorem Memory.read_nil (a : Nat) : Memory.read [] a = none := rfl

theorem Memory.read_cons (c : Host.Cell) (m : Memory) (a : Nat) :
    Memory.read (c :: m) a = if c.1 = a then some c.2 else Memory.read m a := rfl

/-- A write is read back at its address and nowhere else, in every memory. -/
theorem Memory.read_write (m : Memory) (a : Nat) (b : Byte) (i : Nat) :
    Memory.read (Memory.write m a b) i = if i = a then some b else Memory.read m i := by
  induction m with
  | nil => simp only [Memory.write, Memory.read_cons, Memory.read_nil, eq_comm]
  | cons c m ih =>
    rw [Memory.write]
    split_ifs with h1 h2 <;> simp only [Memory.read_cons, ih] <;> split_ifs <;> first | rfl | omega

@[simp] theorem Memory.writeBytes_nil (m : Memory) (a : Nat) : Memory.writeBytes m a [] = m := rfl

theorem Memory.writeBytes_cons (m : Memory) (a : Nat) (b : Byte) (v : Bytes) :
    Memory.writeBytes m a (b :: v) = Memory.writeBytes (Memory.write m a b) (a + 1) v := rfl

/-- After a string is written, its region reads as the string and every other address as before. -/
theorem Memory.read_writeBytes (m : Memory) (a : Nat) (v : Bytes) (i : Nat) :
    Memory.read (Memory.writeBytes m a v) i = if a ≤ i ∧ i < a + v.length then v[i - a]? else Memory.read m i := by
  induction v generalizing m a with
  | nil => simp only [Memory.writeBytes_nil, List.length_nil]; rw [if_neg (by omega)]
  | cons b v ih =>
    rw [Memory.writeBytes_cons, ih, Memory.read_write]
    rcases Nat.lt_trichotomy i a with h | h | h
    · rw [if_neg (by omega), if_neg (by omega), if_neg (by omega)]
    · subst h; simp
    · obtain ⟨j, rfl⟩ : ∃ j, i = a + 1 + j := ⟨i - (a + 1), by omega⟩
      have e : a + 1 + j - a = j + 1 := by omega
      simp only [e, Nat.add_sub_cancel_left, List.length_cons, List.getElem?_cons_succ]
      split_ifs <;> first | rfl | omega

/-! ### The canonical form -/

theorem Memory.wf_cons {c : Host.Cell} {m : Memory} :
    Memory.wf (c :: m) = true ↔ (∀ d ∈ m.head?, c.1 < d.1) ∧ Memory.wf m = true := by
  cases m <;> simp [Memory.wf]

theorem Memory.write_head (m : Memory) (a : Nat) (b : Byte) :
    ∀ d ∈ (Memory.write m a b).head?, d.1 = a ∨ ∃ c ∈ m.head?, d.1 = c.1 := by
  cases m with
  | nil => simp [Memory.write]
  | cons c m => rw [Memory.write]; split_ifs <;> simp

/-- A write keeps the canonical form. -/
theorem Memory.write_wf {m : Memory} (h : Memory.wf m = true) (a : Nat) (b : Byte) :
    Memory.wf (Memory.write m a b) = true := by
  induction m with
  | nil => rfl
  | cons c m ih =>
    obtain ⟨hc, hm⟩ := Memory.wf_cons.1 h
    rw [Memory.write]
    split_ifs with h1 h2
    · exact Memory.wf_cons.2 ⟨by simpa using h1, h⟩
    · exact Memory.wf_cons.2 ⟨by simpa [h2] using hc, hm⟩
    · refine Memory.wf_cons.2 ⟨fun d hd => ?_, ih hm⟩
      rcases Memory.write_head m a b d hd with e | ⟨x, hx, e⟩
      · omega
      · rw [e]; exact hc x hx

/-- A write of a string keeps the canonical form. -/
theorem Memory.writeBytes_wf {m : Memory} (h : Memory.wf m = true) (a : Nat) (v : Bytes) :
    Memory.wf (Memory.writeBytes m a v) = true := by
  induction v generalizing m a with
  | nil => exact h
  | cons b v ih => exact ih (Memory.write_wf h a b) (a + 1)

/-- A write inside the buffer keeps every cell inside it. -/
theorem Memory.write_within {n : Nat} {m : Memory} (h : Memory.within n m = true) {a : Nat} (ha : a < n) (b : Byte) :
    Memory.within n (Memory.write m a b) = true := by
  induction m with
  | nil => simpa [Memory.write, Memory.within] using ha
  | cons c m ih =>
    simp only [Memory.within, List.all_cons, Bool.and_eq_true, decide_eq_true_eq] at h ih
    rw [Memory.write]
    split_ifs <;> simp only [Memory.within, List.all_cons, Bool.and_eq_true, decide_eq_true_eq]
    · exact ⟨ha, h⟩
    · exact ⟨ha, h.2⟩
    · exact ⟨h.1, ih h.2⟩

/-- A write of a string inside the buffer keeps every cell inside it. -/
theorem Memory.writeBytes_within {n : Nat} {m : Memory} (h : Memory.within n m = true) {a : Nat} {v : Bytes}
    (hv : a + v.length ≤ n) : Memory.within n (Memory.writeBytes m a v) = true := by
  induction v generalizing m a with
  | nil => exact h
  | cons b v ih =>
    simp only [List.length_cons] at hv
    exact ih (Memory.write_within h (by omega) b) (by omega)

/-- An address beyond the buffer is unwritten. -/
theorem Memory.read_beyond {n : Nat} {m : Memory} (h : Memory.within n m = true) {a : Nat} (ha : n ≤ a) :
    Memory.read m a = none := by
  induction m with
  | nil => rfl
  | cons c m ih =>
    simp only [Memory.within, List.all_cons, Bool.and_eq_true, decide_eq_true_eq] at h ih
    rw [Memory.read_cons, if_neg (by omega), ih h.2]

end Sys2Proof.Machine
end

