-- ==== Sys2Proof/Laws/State.lean ====
section
/-! SUPPORT. One lemma per field of State and named update, so that no later proof unfolds a record update. -/

namespace Sys2Proof.Machine

variable (s : State)

/-! ### accept -/

@[simp] theorem State.accept_params (v : Word) : (s.accept v).params = s.params := rfl
@[simp] theorem State.accept_ctrlIE (v : Word) : (s.accept v).ctrlIE = s.ctrlIE := rfl
@[simp] theorem State.accept_busy (v : Word) : (s.accept v).busy = true := rfl
@[simp] theorem State.accept_done (v : Word) : (s.accept v).done = false := rfl
@[simp] theorem State.accept_err (v : Word) : (s.accept v).err = false := rfl
@[simp] theorem State.accept_auth (v : Word) : (s.accept v).auth = false := rfl
@[simp] theorem State.accept_werr (v : Word) : (s.accept v).werr = s.werr := rfl
@[simp] theorem State.accept_errCode (v : Word) : (s.accept v).errCode = .noError := rfl
@[simp] theorem State.accept_cmd (v : Word) : (s.accept v).cmd = v := rfl
@[simp] theorem State.accept_srcAddr (v : Word) : (s.accept v).srcAddr = s.srcAddr := rfl
@[simp] theorem State.accept_srcLen (v : Word) : (s.accept v).srcLen = s.srcLen := rfl
@[simp] theorem State.accept_seedAddr (v : Word) : (s.accept v).seedAddr = s.seedAddr := rfl
@[simp] theorem State.accept_seedLen (v : Word) : (s.accept v).seedLen = s.seedLen := rfl
@[simp] theorem State.accept_dstAddr (v : Word) : (s.accept v).dstAddr = s.dstAddr := rfl
@[simp] theorem State.accept_outLen (v : Word) : (s.accept v).outLen = s.outLen := rfl
@[simp] theorem State.accept_kcfgSkl (v : Word) : (s.accept v).kcfgSkl = s.kcfgSkl := rfl
@[simp] theorem State.accept_kcfgEkl (v : Word) : (s.accept v).kcfgEkl = s.kcfgEkl := rfl
@[simp] theorem State.accept_kcfgEbs (v : Word) : (s.accept v).kcfgEbs = s.kcfgEbs := rfl
@[simp] theorem State.accept_kcfgSgl (v : Word) : (s.accept v).kcfgSgl = s.kcfgSgl := rfl
@[simp] theorem State.accept_resultLen (v : Word) : (s.accept v).resultLen = 0 := rfl
@[simp] theorem State.accept_slots (v : Word) : (s.accept v).slots = s.slots := rfl
@[simp] theorem State.accept_buf (v : Word) : (s.accept v).buf = s.buf := rfl
@[simp] theorem State.accept_hostOps (v : Word) : (s.accept v).hostOps = s.hostOps := rfl
@[simp] theorem State.accept_reads (v : Word) : (s.accept v).reads = s.reads := rfl
@[simp] theorem State.accept_turns (v : Word) : (s.accept v).turns = s.turns := rfl
@[simp] theorem State.accept_draw (v : Word) : (s.accept v).draw = s.draw := rfl

/-! ### completeError -/

@[simp] theorem State.completeError_params (c : ErrCode) : (s.completeError c).params = s.params := rfl
@[simp] theorem State.completeError_ctrlIE (c : ErrCode) : (s.completeError c).ctrlIE = s.ctrlIE := rfl
@[simp] theorem State.completeError_busy (c : ErrCode) : (s.completeError c).busy = false := rfl
@[simp] theorem State.completeError_done (c : ErrCode) : (s.completeError c).done = true := rfl
@[simp] theorem State.completeError_err (c : ErrCode) : (s.completeError c).err = true := rfl
@[simp] theorem State.completeError_auth (c : ErrCode) : (s.completeError c).auth = false := rfl
@[simp] theorem State.completeError_werr (c : ErrCode) : (s.completeError c).werr = s.werr := rfl
@[simp] theorem State.completeError_errCode (c : ErrCode) : (s.completeError c).errCode = c := rfl
@[simp] theorem State.completeError_cmd (c : ErrCode) : (s.completeError c).cmd = s.cmd := rfl
@[simp] theorem State.completeError_srcAddr (c : ErrCode) : (s.completeError c).srcAddr = s.srcAddr := rfl
@[simp] theorem State.completeError_srcLen (c : ErrCode) : (s.completeError c).srcLen = s.srcLen := rfl
@[simp] theorem State.completeError_seedAddr (c : ErrCode) : (s.completeError c).seedAddr = s.seedAddr := rfl
@[simp] theorem State.completeError_seedLen (c : ErrCode) : (s.completeError c).seedLen = s.seedLen := rfl
@[simp] theorem State.completeError_dstAddr (c : ErrCode) : (s.completeError c).dstAddr = s.dstAddr := rfl
@[simp] theorem State.completeError_outLen (c : ErrCode) : (s.completeError c).outLen = s.outLen := rfl
@[simp] theorem State.completeError_kcfgSkl (c : ErrCode) : (s.completeError c).kcfgSkl = s.kcfgSkl := rfl
@[simp] theorem State.completeError_kcfgEkl (c : ErrCode) : (s.completeError c).kcfgEkl = s.kcfgEkl := rfl
@[simp] theorem State.completeError_kcfgEbs (c : ErrCode) : (s.completeError c).kcfgEbs = s.kcfgEbs := rfl
@[simp] theorem State.completeError_kcfgSgl (c : ErrCode) : (s.completeError c).kcfgSgl = s.kcfgSgl := rfl
@[simp] theorem State.completeError_resultLen (c : ErrCode) : (s.completeError c).resultLen = 0 := rfl
@[simp] theorem State.completeError_slots (c : ErrCode) : (s.completeError c).slots = s.slots := rfl
@[simp] theorem State.completeError_buf (c : ErrCode) : (s.completeError c).buf = s.buf := rfl
@[simp] theorem State.completeError_hostOps (c : ErrCode) : (s.completeError c).hostOps = s.hostOps := rfl
@[simp] theorem State.completeError_reads (c : ErrCode) : (s.completeError c).reads = s.reads := rfl
@[simp] theorem State.completeError_turns (c : ErrCode) : (s.completeError c).turns = s.turns := rfl
@[simp] theorem State.completeError_draw (c : ErrCode) : (s.completeError c).draw = s.draw + 1 := rfl

/-! ### completeOk -/

@[simp] theorem State.completeOk_params (e : Effect) : (s.completeOk e).params = s.params := rfl
@[simp] theorem State.completeOk_ctrlIE (e : Effect) : (s.completeOk e).ctrlIE = s.ctrlIE := rfl
@[simp] theorem State.completeOk_busy (e : Effect) : (s.completeOk e).busy = false := rfl
@[simp] theorem State.completeOk_done (e : Effect) : (s.completeOk e).done = true := rfl
@[simp] theorem State.completeOk_err (e : Effect) : (s.completeOk e).err = false := rfl
@[simp] theorem State.completeOk_auth (e : Effect) : (s.completeOk e).auth = e.auth := rfl
@[simp] theorem State.completeOk_werr (e : Effect) : (s.completeOk e).werr = s.werr := rfl
@[simp] theorem State.completeOk_errCode (e : Effect) : (s.completeOk e).errCode = .noError := rfl
@[simp] theorem State.completeOk_cmd (e : Effect) : (s.completeOk e).cmd = s.cmd := rfl
@[simp] theorem State.completeOk_srcAddr (e : Effect) : (s.completeOk e).srcAddr = s.srcAddr := rfl
@[simp] theorem State.completeOk_srcLen (e : Effect) : (s.completeOk e).srcLen = s.srcLen := rfl
@[simp] theorem State.completeOk_seedAddr (e : Effect) : (s.completeOk e).seedAddr = s.seedAddr := rfl
@[simp] theorem State.completeOk_seedLen (e : Effect) : (s.completeOk e).seedLen = s.seedLen := rfl
@[simp] theorem State.completeOk_dstAddr (e : Effect) : (s.completeOk e).dstAddr = s.dstAddr := rfl
@[simp] theorem State.completeOk_outLen (e : Effect) : (s.completeOk e).outLen = s.outLen := rfl
@[simp] theorem State.completeOk_kcfgSkl (e : Effect) : (s.completeOk e).kcfgSkl = s.kcfgSkl := rfl
@[simp] theorem State.completeOk_kcfgEkl (e : Effect) : (s.completeOk e).kcfgEkl = s.kcfgEkl := rfl
@[simp] theorem State.completeOk_kcfgEbs (e : Effect) : (s.completeOk e).kcfgEbs = s.kcfgEbs := rfl
@[simp] theorem State.completeOk_kcfgSgl (e : Effect) : (s.completeOk e).kcfgSgl = s.kcfgSgl := rfl
@[simp] theorem State.completeOk_resultLen (e : Effect) : (s.completeOk e).resultLen = BitVec.ofNat 32 e.resultLen := rfl
@[simp] theorem State.completeOk_slots (e : Effect) : (s.completeOk e).slots = writeSlot s.slots e.slotWrite := rfl
@[simp] theorem State.completeOk_buf (e : Effect) : (s.completeOk e).buf = s.buf.writeBytes e.dst e.out := rfl
@[simp] theorem State.completeOk_hostOps (e : Effect) : (s.completeOk e).hostOps = s.hostOps := rfl
@[simp] theorem State.completeOk_reads (e : Effect) : (s.completeOk e).reads = s.reads := rfl
@[simp] theorem State.completeOk_turns (e : Effect) : (s.completeOk e).turns = s.turns := rfl
@[simp] theorem State.completeOk_draw (e : Effect) : (s.completeOk e).draw = s.draw + 1 := rfl

/-! ### ackStatus -/

@[simp] theorem State.ackStatus_params (v : Word) : (s.ackStatus v).params = s.params := rfl
@[simp] theorem State.ackStatus_ctrlIE (v : Word) : (s.ackStatus v).ctrlIE = s.ctrlIE := rfl
@[simp] theorem State.ackStatus_busy (v : Word) : (s.ackStatus v).busy = s.busy := rfl
@[simp] theorem State.ackStatus_done (v : Word) : (s.ackStatus v).done = (s.done && !v.getLsbD 1) := rfl
@[simp] theorem State.ackStatus_err (v : Word) : (s.ackStatus v).err = (s.err && !v.getLsbD 2) := rfl
@[simp] theorem State.ackStatus_auth (v : Word) : (s.ackStatus v).auth = s.auth := rfl
@[simp] theorem State.ackStatus_werr (v : Word) : (s.ackStatus v).werr = (s.werr && !v.getLsbD 4) := rfl
@[simp] theorem State.ackStatus_errCode (v : Word) : (s.ackStatus v).errCode = if v.getLsbD 2 then .noError else s.errCode := rfl
@[simp] theorem State.ackStatus_cmd (v : Word) : (s.ackStatus v).cmd = s.cmd := rfl
@[simp] theorem State.ackStatus_srcAddr (v : Word) : (s.ackStatus v).srcAddr = s.srcAddr := rfl
@[simp] theorem State.ackStatus_srcLen (v : Word) : (s.ackStatus v).srcLen = s.srcLen := rfl
@[simp] theorem State.ackStatus_seedAddr (v : Word) : (s.ackStatus v).seedAddr = s.seedAddr := rfl
@[simp] theorem State.ackStatus_seedLen (v : Word) : (s.ackStatus v).seedLen = s.seedLen := rfl
@[simp] theorem State.ackStatus_dstAddr (v : Word) : (s.ackStatus v).dstAddr = s.dstAddr := rfl
@[simp] theorem State.ackStatus_outLen (v : Word) : (s.ackStatus v).outLen = s.outLen := rfl
@[simp] theorem State.ackStatus_kcfgSkl (v : Word) : (s.ackStatus v).kcfgSkl = s.kcfgSkl := rfl
@[simp] theorem State.ackStatus_kcfgEkl (v : Word) : (s.ackStatus v).kcfgEkl = s.kcfgEkl := rfl
@[simp] theorem State.ackStatus_kcfgEbs (v : Word) : (s.ackStatus v).kcfgEbs = s.kcfgEbs := rfl
@[simp] theorem State.ackStatus_kcfgSgl (v : Word) : (s.ackStatus v).kcfgSgl = s.kcfgSgl := rfl
@[simp] theorem State.ackStatus_resultLen (v : Word) : (s.ackStatus v).resultLen = s.resultLen := rfl
@[simp] theorem State.ackStatus_slots (v : Word) : (s.ackStatus v).slots = s.slots := rfl
@[simp] theorem State.ackStatus_buf (v : Word) : (s.ackStatus v).buf = s.buf := rfl
@[simp] theorem State.ackStatus_hostOps (v : Word) : (s.ackStatus v).hostOps = s.hostOps := rfl
@[simp] theorem State.ackStatus_reads (v : Word) : (s.ackStatus v).reads = s.reads := rfl
@[simp] theorem State.ackStatus_turns (v : Word) : (s.ackStatus v).turns = s.turns := rfl
@[simp] theorem State.ackStatus_draw (v : Word) : (s.ackStatus v).draw = s.draw := rfl

/-! ### dropWrite -/

@[simp] theorem State.dropWrite_params : (s.dropWrite).params = s.params := rfl
@[simp] theorem State.dropWrite_ctrlIE : (s.dropWrite).ctrlIE = s.ctrlIE := rfl
@[simp] theorem State.dropWrite_busy : (s.dropWrite).busy = s.busy := rfl
@[simp] theorem State.dropWrite_done : (s.dropWrite).done = s.done := rfl
@[simp] theorem State.dropWrite_err : (s.dropWrite).err = s.err := rfl
@[simp] theorem State.dropWrite_auth : (s.dropWrite).auth = s.auth := rfl
@[simp] theorem State.dropWrite_werr : (s.dropWrite).werr = true := rfl
@[simp] theorem State.dropWrite_errCode : (s.dropWrite).errCode = s.errCode := rfl
@[simp] theorem State.dropWrite_cmd : (s.dropWrite).cmd = s.cmd := rfl
@[simp] theorem State.dropWrite_srcAddr : (s.dropWrite).srcAddr = s.srcAddr := rfl
@[simp] theorem State.dropWrite_srcLen : (s.dropWrite).srcLen = s.srcLen := rfl
@[simp] theorem State.dropWrite_seedAddr : (s.dropWrite).seedAddr = s.seedAddr := rfl
@[simp] theorem State.dropWrite_seedLen : (s.dropWrite).seedLen = s.seedLen := rfl
@[simp] theorem State.dropWrite_dstAddr : (s.dropWrite).dstAddr = s.dstAddr := rfl
@[simp] theorem State.dropWrite_outLen : (s.dropWrite).outLen = s.outLen := rfl
@[simp] theorem State.dropWrite_kcfgSkl : (s.dropWrite).kcfgSkl = s.kcfgSkl := rfl
@[simp] theorem State.dropWrite_kcfgEkl : (s.dropWrite).kcfgEkl = s.kcfgEkl := rfl
@[simp] theorem State.dropWrite_kcfgEbs : (s.dropWrite).kcfgEbs = s.kcfgEbs := rfl
@[simp] theorem State.dropWrite_kcfgSgl : (s.dropWrite).kcfgSgl = s.kcfgSgl := rfl
@[simp] theorem State.dropWrite_resultLen : (s.dropWrite).resultLen = s.resultLen := rfl
@[simp] theorem State.dropWrite_slots : (s.dropWrite).slots = s.slots := rfl
@[simp] theorem State.dropWrite_buf : (s.dropWrite).buf = s.buf := rfl
@[simp] theorem State.dropWrite_hostOps : (s.dropWrite).hostOps = s.hostOps := rfl
@[simp] theorem State.dropWrite_reads : (s.dropWrite).reads = s.reads := rfl
@[simp] theorem State.dropWrite_turns : (s.dropWrite).turns = s.turns := rfl
@[simp] theorem State.dropWrite_draw : (s.dropWrite).draw = s.draw := rfl

/-! ### noteRead -/

@[simp] theorem State.noteRead_params (v : Word) : (s.noteRead v).params = s.params := rfl
@[simp] theorem State.noteRead_ctrlIE (v : Word) : (s.noteRead v).ctrlIE = s.ctrlIE := rfl
@[simp] theorem State.noteRead_busy (v : Word) : (s.noteRead v).busy = s.busy := rfl
@[simp] theorem State.noteRead_done (v : Word) : (s.noteRead v).done = s.done := rfl
@[simp] theorem State.noteRead_err (v : Word) : (s.noteRead v).err = s.err := rfl
@[simp] theorem State.noteRead_auth (v : Word) : (s.noteRead v).auth = s.auth := rfl
@[simp] theorem State.noteRead_werr (v : Word) : (s.noteRead v).werr = s.werr := rfl
@[simp] theorem State.noteRead_errCode (v : Word) : (s.noteRead v).errCode = s.errCode := rfl
@[simp] theorem State.noteRead_cmd (v : Word) : (s.noteRead v).cmd = s.cmd := rfl
@[simp] theorem State.noteRead_srcAddr (v : Word) : (s.noteRead v).srcAddr = s.srcAddr := rfl
@[simp] theorem State.noteRead_srcLen (v : Word) : (s.noteRead v).srcLen = s.srcLen := rfl
@[simp] theorem State.noteRead_seedAddr (v : Word) : (s.noteRead v).seedAddr = s.seedAddr := rfl
@[simp] theorem State.noteRead_seedLen (v : Word) : (s.noteRead v).seedLen = s.seedLen := rfl
@[simp] theorem State.noteRead_dstAddr (v : Word) : (s.noteRead v).dstAddr = s.dstAddr := rfl
@[simp] theorem State.noteRead_outLen (v : Word) : (s.noteRead v).outLen = s.outLen := rfl
@[simp] theorem State.noteRead_kcfgSkl (v : Word) : (s.noteRead v).kcfgSkl = s.kcfgSkl := rfl
@[simp] theorem State.noteRead_kcfgEkl (v : Word) : (s.noteRead v).kcfgEkl = s.kcfgEkl := rfl
@[simp] theorem State.noteRead_kcfgEbs (v : Word) : (s.noteRead v).kcfgEbs = s.kcfgEbs := rfl
@[simp] theorem State.noteRead_kcfgSgl (v : Word) : (s.noteRead v).kcfgSgl = s.kcfgSgl := rfl
@[simp] theorem State.noteRead_resultLen (v : Word) : (s.noteRead v).resultLen = s.resultLen := rfl
@[simp] theorem State.noteRead_slots (v : Word) : (s.noteRead v).slots = s.slots := rfl
@[simp] theorem State.noteRead_buf (v : Word) : (s.noteRead v).buf = s.buf := rfl
@[simp] theorem State.noteRead_hostOps (v : Word) : (s.noteRead v).hostOps = s.hostOps := rfl
@[simp] theorem State.noteRead_reads (v : Word) : (s.noteRead v).reads = s.reads ++ [v] := rfl
@[simp] theorem State.noteRead_turns (v : Word) : (s.noteRead v).turns = s.turns := rfl
@[simp] theorem State.noteRead_draw (v : Word) : (s.noteRead v).draw = s.draw + 1 := rfl

/-! ### commandPending -/

@[simp] theorem State.commandPending_params (w : Word) : (s.commandPending w).params = s.params := rfl
@[simp] theorem State.commandPending_ctrlIE (w : Word) : (s.commandPending w).ctrlIE = s.ctrlIE := rfl
@[simp] theorem State.commandPending_busy (w : Word) : (s.commandPending w).busy = true := rfl
@[simp] theorem State.commandPending_done (w : Word) : (s.commandPending w).done = false := rfl
@[simp] theorem State.commandPending_err (w : Word) : (s.commandPending w).err = false := rfl
@[simp] theorem State.commandPending_auth (w : Word) : (s.commandPending w).auth = false := rfl
@[simp] theorem State.commandPending_werr (w : Word) : (s.commandPending w).werr = s.werr := rfl
@[simp] theorem State.commandPending_errCode (w : Word) : (s.commandPending w).errCode = .noError := rfl
@[simp] theorem State.commandPending_cmd (w : Word) : (s.commandPending w).cmd = w := rfl
@[simp] theorem State.commandPending_srcAddr (w : Word) : (s.commandPending w).srcAddr = s.srcAddr := rfl
@[simp] theorem State.commandPending_srcLen (w : Word) : (s.commandPending w).srcLen = s.srcLen := rfl
@[simp] theorem State.commandPending_seedAddr (w : Word) : (s.commandPending w).seedAddr = s.seedAddr := rfl
@[simp] theorem State.commandPending_seedLen (w : Word) : (s.commandPending w).seedLen = s.seedLen := rfl
@[simp] theorem State.commandPending_dstAddr (w : Word) : (s.commandPending w).dstAddr = s.dstAddr := rfl
@[simp] theorem State.commandPending_outLen (w : Word) : (s.commandPending w).outLen = s.outLen := rfl
@[simp] theorem State.commandPending_kcfgSkl (w : Word) : (s.commandPending w).kcfgSkl = s.kcfgSkl := rfl
@[simp] theorem State.commandPending_kcfgEkl (w : Word) : (s.commandPending w).kcfgEkl = s.kcfgEkl := rfl
@[simp] theorem State.commandPending_kcfgEbs (w : Word) : (s.commandPending w).kcfgEbs = s.kcfgEbs := rfl
@[simp] theorem State.commandPending_kcfgSgl (w : Word) : (s.commandPending w).kcfgSgl = s.kcfgSgl := rfl
@[simp] theorem State.commandPending_resultLen (w : Word) : (s.commandPending w).resultLen = 0 := rfl
@[simp] theorem State.commandPending_slots (w : Word) : (s.commandPending w).slots = s.slots := rfl
@[simp] theorem State.commandPending_buf (w : Word) : (s.commandPending w).buf = s.buf := rfl
@[simp] theorem State.commandPending_hostOps (w : Word) : (s.commandPending w).hostOps = s.hostOps := rfl
@[simp] theorem State.commandPending_reads (w : Word) : (s.commandPending w).reads = s.reads := rfl
@[simp] theorem State.commandPending_turns (w : Word) : (s.commandPending w).turns = .engine :: s.turns := rfl
@[simp] theorem State.commandPending_draw (w : Word) : (s.commandPending w).draw = s.draw := rfl

/-! ### assertReset -/

@[simp] theorem State.assertReset_params : (s.assertReset).params = s.params := rfl
@[simp] theorem State.assertReset_ctrlIE : (s.assertReset).ctrlIE = false := rfl
@[simp] theorem State.assertReset_busy : (s.assertReset).busy = false := rfl
@[simp] theorem State.assertReset_done : (s.assertReset).done = false := rfl
@[simp] theorem State.assertReset_err : (s.assertReset).err = false := rfl
@[simp] theorem State.assertReset_auth : (s.assertReset).auth = false := rfl
@[simp] theorem State.assertReset_werr : (s.assertReset).werr = false := rfl
@[simp] theorem State.assertReset_errCode : (s.assertReset).errCode = .noError := rfl
@[simp] theorem State.assertReset_cmd : (s.assertReset).cmd = 0 := rfl
@[simp] theorem State.assertReset_srcAddr : (s.assertReset).srcAddr = 0 := rfl
@[simp] theorem State.assertReset_srcLen : (s.assertReset).srcLen = 0 := rfl
@[simp] theorem State.assertReset_seedAddr : (s.assertReset).seedAddr = 0 := rfl
@[simp] theorem State.assertReset_seedLen : (s.assertReset).seedLen = 0 := rfl
@[simp] theorem State.assertReset_dstAddr : (s.assertReset).dstAddr = 0 := rfl
@[simp] theorem State.assertReset_outLen : (s.assertReset).outLen = 0 := rfl
@[simp] theorem State.assertReset_kcfgSkl : (s.assertReset).kcfgSkl = 0 := rfl
@[simp] theorem State.assertReset_kcfgEkl : (s.assertReset).kcfgEkl = 0 := rfl
@[simp] theorem State.assertReset_kcfgEbs : (s.assertReset).kcfgEbs = 0 := rfl
@[simp] theorem State.assertReset_kcfgSgl : (s.assertReset).kcfgSgl = 0 := rfl
@[simp] theorem State.assertReset_resultLen : (s.assertReset).resultLen = 0 := rfl
@[simp] theorem State.assertReset_slots : (s.assertReset).slots = List.replicate s.params.nks KeySlot.empty := rfl
@[simp] theorem State.assertReset_buf : (s.assertReset).buf = [] := rfl
@[simp] theorem State.assertReset_hostOps : (s.assertReset).hostOps = s.hostOps := rfl
@[simp] theorem State.assertReset_reads : (s.assertReset).reads = s.reads := rfl
@[simp] theorem State.assertReset_turns : (s.assertReset).turns = s.turns := rfl
@[simp] theorem State.assertReset_draw : (s.assertReset).draw = s.draw := rfl

/-! ### resetWith -/

@[simp] theorem State.resetWith_params (p : Params) : (State.resetWith p).params = p := rfl
@[simp] theorem State.resetWith_ctrlIE (p : Params) : (State.resetWith p).ctrlIE = false := rfl
@[simp] theorem State.resetWith_busy (p : Params) : (State.resetWith p).busy = false := rfl
@[simp] theorem State.resetWith_done (p : Params) : (State.resetWith p).done = false := rfl
@[simp] theorem State.resetWith_err (p : Params) : (State.resetWith p).err = false := rfl
@[simp] theorem State.resetWith_auth (p : Params) : (State.resetWith p).auth = false := rfl
@[simp] theorem State.resetWith_werr (p : Params) : (State.resetWith p).werr = false := rfl
@[simp] theorem State.resetWith_errCode (p : Params) : (State.resetWith p).errCode = .noError := rfl
@[simp] theorem State.resetWith_cmd (p : Params) : (State.resetWith p).cmd = 0 := rfl
@[simp] theorem State.resetWith_srcAddr (p : Params) : (State.resetWith p).srcAddr = 0 := rfl
@[simp] theorem State.resetWith_srcLen (p : Params) : (State.resetWith p).srcLen = 0 := rfl
@[simp] theorem State.resetWith_seedAddr (p : Params) : (State.resetWith p).seedAddr = 0 := rfl
@[simp] theorem State.resetWith_seedLen (p : Params) : (State.resetWith p).seedLen = 0 := rfl
@[simp] theorem State.resetWith_dstAddr (p : Params) : (State.resetWith p).dstAddr = 0 := rfl
@[simp] theorem State.resetWith_outLen (p : Params) : (State.resetWith p).outLen = 0 := rfl
@[simp] theorem State.resetWith_kcfgSkl (p : Params) : (State.resetWith p).kcfgSkl = 0 := rfl
@[simp] theorem State.resetWith_kcfgEkl (p : Params) : (State.resetWith p).kcfgEkl = 0 := rfl
@[simp] theorem State.resetWith_kcfgEbs (p : Params) : (State.resetWith p).kcfgEbs = 0 := rfl
@[simp] theorem State.resetWith_kcfgSgl (p : Params) : (State.resetWith p).kcfgSgl = 0 := rfl
@[simp] theorem State.resetWith_resultLen (p : Params) : (State.resetWith p).resultLen = 0 := rfl
@[simp] theorem State.resetWith_slots (p : Params) : (State.resetWith p).slots = List.replicate p.nks KeySlot.empty := rfl
@[simp] theorem State.resetWith_buf (p : Params) : (State.resetWith p).buf = [] := rfl
@[simp] theorem State.resetWith_hostOps (p : Params) : (State.resetWith p).hostOps = [] := rfl
@[simp] theorem State.resetWith_reads (p : Params) : (State.resetWith p).reads = [] := rfl
@[simp] theorem State.resetWith_turns (p : Params) : (State.resetWith p).turns = [] := rfl
@[simp] theorem State.resetWith_draw (p : Params) : (State.resetWith p).draw = 0 := rfl

end Sys2Proof.Machine
end

