-- ==== Sys2Proof/Laws/Ops.lean ====
section
/-! SUPPORT. What each shared operation of a command rule can do, said once. -/

namespace Sys2Proof.Machine

/-! ### The error monad of command rules -/

@[simp] theorem ok_bind {α β : Type} (a : α) (f : α → Except ErrCode β) : (Except.ok a >>= f) = f a := rfl

@[simp] theorem error_bind {α β : Type} (e : ErrCode) (f : α → Except ErrCode β) :
    (Except.error e >>= f) = Except.error e := rfl

@[simp] theorem pure_eq_ok {α : Type} (a : α) : (pure a : Except ErrCode α) = .ok a := rfl

/-- A rule that ends without error passed each of its parts. -/
theorem bind_eq_ok {α β : Type} {x : Except ErrCode α} {f : α → Except ErrCode β} {b : β} :
    (x >>= f) = .ok b ↔ ∃ a, x = .ok a ∧ f a = .ok b := by
  cases x <;> simp

/-- A rule that ends with an error met it in one of its parts. -/
theorem bind_eq_error {α β : Type} {x : Except ErrCode α} {f : α → Except ErrCode β} {c : ErrCode} :
    (x >>= f) = .error c ↔ x = .error c ∨ ∃ a, x = .ok a ∧ f a = .error c := by
  cases x <;> simp

theorem raiseIf_eq_ok {c : Bool} {e : ErrCode} {u : Unit} : raiseIf c e = .ok u ↔ c = false := by
  cases c <;> simp [raiseIf]

theorem raiseIf_eq_error {c : Bool} {e d : ErrCode} : raiseIf c e = .error d ↔ c = true ∧ d = e := by
  cases c <;> simp [raiseIf, eq_comm]

@[simp] theorem raiseIf_false (e : ErrCode) : raiseIf false e = .ok () := rfl

@[simp] theorem raiseIf_true (e : ErrCode) : raiseIf true e = .error e := rfl

/-! ### Regions -/

@[simp] theorem State.bytesAt_length (s : State) (port a n : Nat) : (s.bytesAt port a n).length = n := by
  simp [State.bytesAt]

/-- Byte `i` of a region is the byte read at `a + i`. -/
theorem State.bytesAt_getElem? (s : State) (port a n i : Nat) :
    (s.bytesAt port a n)[i]? = if i < n then some (s.byteAt port (a + i)) else none := by
  unfold State.bytesAt
  rw [List.getElem?_map]
  split_ifs with h
  · rw [List.getElem?_range h]; rfl
  · rw [List.getElem?_eq_none (by simpa using h)]; rfl

/-- A written byte reads as it was written, whatever the draw. -/
theorem State.byteAt_written {s : State} {a : Nat} {b : Byte} (h : s.buf.read a = some b) (port : Nat) :
    s.byteAt port a = b := by
  simp [State.byteAt, h]

/-- A region whose bytes are written reads as those bytes. -/
theorem State.bytesAt_written {s : State} {a : Nat} {v : Bytes} (h : ∀ i, i < v.length → s.buf.read (a + i) = v[i]?)
    (port : Nat) : s.bytesAt port a v.length = v := by
  refine List.ext_getElem? fun i => ?_
  rw [State.bytesAt_getElem?]
  split_ifs with hi
  · have e := h i hi
    rw [List.getElem?_eq_getElem hi] at e ⊢
    rw [State.byteAt_written e]
  · rw [List.getElem?_eq_none (by omega)]

/-- MemRead succeeds exactly on a region inside the buffer, and then gives its bytes. -/
theorem State.memRead_eq_ok {s : State} {port a n : Nat} {b : Bytes} :
    s.memRead port a n = .ok b ↔ a + n ≤ s.params.bufSize ∧ b = s.bytesAt port a n := by
  unfold State.memRead
  split_ifs with h
  · simp; omega
  · simp [eq_comm]; omega

/-- MemRead fails exactly on a region not inside the buffer, and then with BOUNDS. -/
theorem State.memRead_eq_error {s : State} {port a n : Nat} {c : ErrCode} :
    s.memRead port a n = .error c ↔ s.params.bufSize < a + n ∧ c = .bounds := by
  unfold State.memRead
  split_ifs with h
  · simp [eq_comm]; omega
  · simp; omega

theorem State.checkOut_eq_ok {s : State} {a n : Nat} {u : Unit} :
    s.checkOut a n = .ok u ↔ a + n ≤ s.params.bufSize := by
  unfold State.checkOut
  rw [raiseIf_eq_ok]
  simp

theorem State.checkOut_eq_error {s : State} {a n : Nat} {c : ErrCode} :
    s.checkOut a n = .error c ↔ s.params.bufSize < a + n ∧ c = .bounds := by
  unfold State.checkOut
  rw [raiseIf_eq_error]
  simp

/-! ### Slots -/

@[simp] theorem writeSlot_none (l : List KeySlot) : writeSlot l none = l := rfl

@[simp] theorem writeSlot_some (l : List KeySlot) (k : Nat) (ks : KeySlot) :
    writeSlot l (some (k, ks)) = l.set k ks := rfl

@[simp] theorem writeSlot_length (l : List KeySlot) (w : Option (Nat × KeySlot)) :
    (writeSlot l w).length = l.length := by
  cases w <;> simp [writeSlot]

/-- A slot number inside the slot file names a slot of it. -/
theorem State.slot_mem {s : State} {k : Nat} (h : k < s.slots.length) : s.slot k ∈ s.slots := by
  unfold State.slot
  rw [List.getD_eq_getElem _ _ h]
  exact List.getElem_mem h

/-! ### Completion -/

@[simp] theorem State.complete_error (s : State) (c : ErrCode) : s.complete (.error c) = s.completeError c := rfl

@[simp] theorem State.complete_ok (s : State) (e : Effect) : s.complete (.ok e) = s.completeOk e := rfl

/-- A completion is one of two: an error record, or the effect of the command's rule. -/
theorem State.complete_cases (s : State) (r : Except ErrCode Effect) :
    (∃ c, r = .error c ∧ s.complete r = s.completeError c) ∨ (∃ e, r = .ok e ∧ s.complete r = s.completeOk e) := by
  cases r with
  | error c => exact .inl ⟨c, rfl, rfl⟩
  | ok e => exact .inr ⟨e, rfl, rfl⟩

/-- However a command ends, the engine is idle and DONE is set. -/
@[simp] theorem State.complete_busy (s : State) (r : Except ErrCode Effect) : (s.complete r).busy = false := by
  cases r <;> rfl

@[simp] theorem State.complete_done (s : State) (r : Except ErrCode Effect) : (s.complete r).done = true := by
  cases r <;> rfl

end Sys2Proof.Machine
end

