-- ==== Sys2Proof/Laws/Bus.lean ====
section
/-! SUPPORT. The byte order of the host bus and the places of the address map, said once. -/

namespace Sys2Proof.Machine

/-! ### Byte order (20_memory.md R80) -/

/-- The four bytes of a word give the word back. -/
@[simp] theorem leWord_wordByte (w : Word) : leWord (wordByte w 0) (wordByte w 1) (wordByte w 2) (wordByte w 3) = w := by
  refine BitVec.eq_of_getLsbD_eq fun j hj => ?_
  simp only [leWord, wordByte, BitVec.getLsbD_append, BitVec.getLsbD_extractLsb']
  split_ifs <;> rw [decide_eq_true (by omega), Bool.true_and] <;> congr 1 <;> omega

/-- Each byte of a word is the byte at its address. -/
theorem wordByte_leWord (b0 b1 b2 b3 : Byte) :
    wordByte (leWord b0 b1 b2 b3) 0 = b0 ∧ wordByte (leWord b0 b1 b2 b3) 1 = b1
      ∧ wordByte (leWord b0 b1 b2 b3) 2 = b2 ∧ wordByte (leWord b0 b1 b2 b3) 3 = b3 := by
  refine ⟨?_, ?_, ?_, ?_⟩ <;> refine BitVec.eq_of_getLsbD_eq fun j hj => ?_ <;>
    simp only [leWord, wordByte, BitVec.getLsbD_append, BitVec.getLsbD_extractLsb', decide_eq_true hj, Bool.true_and]
  · rw [if_pos (by omega)]; congr 1; omega
  · rw [if_neg (by omega), if_pos (by omega)]; congr 1; omega
  · rw [if_neg (by omega), if_neg (by omega), if_pos (by omega)]; congr 1; omega
  · rw [if_neg (by omega), if_neg (by omega), if_neg (by omega)]; congr 1; omega

@[simp] theorem leBytes_length (w : Word) : (leBytes w).length = 4 := rfl

/-! ### The address map (20_memory.md R84) -/

theorem locate_register (p : Params) {off : Nat} (h : off < 0x1000) : locate p off = .register off := if_pos h

theorem locate_window (p : Params) {j : Nat} (h : j < 0x4000) : locate p (0x1000 + j) = .window j := by
  rw [locate, if_neg (by omega), if_pos (by omega), Nat.add_sub_cancel_left]

theorem locate_buffer {p : Params} {a : Nat} (h : a < p.bufSize) : locate p (0x10000 + a) = .buffer a := by
  rw [locate, if_neg (by omega), if_neg (by omega), if_neg (by omega), if_pos (by omega), Nat.add_sub_cancel_left]

/-! ### Accesses to a place -/

theorem State.load32_window (s : State) {j : Nat} (h : j < 0x4000) (h4 : j % 4 = 0) :
    s.load32 (0x1000 + j) = .ok (fourBytes s.hostWindowByte j) := by
  rw [State.load32, if_neg (by omega), locate_window _ h]

theorem State.load8_window (s : State) {j : Nat} (h : j < 0x4000) :
    s.load8 (0x1000 + j) = .ok (s.hostWindowByte j) := by
  rw [State.load8, locate_window _ h]

theorem State.load32_buffer (s : State) {a : Nat} (h : a < s.params.bufSize) (h4 : a % 4 = 0) :
    s.load32 (0x10000 + a) = .ok (fourBytes s.hostBufByte a) := by
  rw [State.load32, if_neg (by omega), locate_buffer h]

theorem State.load8_buffer (s : State) {a : Nat} (h : a < s.params.bufSize) :
    s.load8 (0x10000 + a) = .ok (s.hostBufByte a) := by
  rw [State.load8, locate_buffer h]

theorem State.store32_buffer (s : State) {a : Nat} (h : a < s.params.bufSize) (h4 : a % 4 = 0) (v : Word) :
    s.store32 (0x10000 + a) v = .ok (s.hostWriteBuf a (leBytes v)) := by
  rw [State.store32, if_neg (by omega), locate_buffer h]

theorem State.store8_buffer (s : State) {a : Nat} (h : a < s.params.bufSize) (v : Byte) :
    s.store8 (0x10000 + a) v = .ok (s.hostWriteBuf a [v]) := by
  rw [State.store8, locate_buffer h]

end Sys2Proof.Machine
end

