-- ==== Sys2Proof/Laws/Operands.lean ====
section
/-! SUPPORT. What the selector checks and the operand reads can do, said once. -/

namespace Sys2Proof.Machine

/-- A HASH field is accepted exactly at its two codes. -/
theorem selectHash_eq_ok {n : Nat} {h : HashVariant} : selectHash n = .ok h ↔ n = (hashCode h).toNat := by
  match n with
  | 0 => cases h <;> simp [selectHash, hashCode]
  | 1 => cases h <;> simp [selectHash, hashCode]
  | n + 2 => cases h <;> simp [selectHash, hashCode]

theorem selectHash_eq_error {n : Nat} {c : ErrCode} : selectHash n = .error c ↔ 1 < n ∧ c = .config := by
  match n with
  | 0 => simp [selectHash]
  | 1 => simp [selectHash]
  | n + 2 => simp [selectHash, eq_comm]

/-- An ALG field is accepted exactly at its two codes. -/
theorem selectAlg_eq_ok {n : Nat} {a : CipherAlg} : selectAlg n = .ok a ↔ n = (algCode a).toNat := by
  match n with
  | 0 => cases a <;> simp [selectAlg, algCode]
  | 1 => cases a <;> simp [selectAlg, algCode]
  | n + 2 => cases a <;> simp [selectAlg, algCode]

theorem selectAlg_eq_error {n : Nat} {c : ErrCode} : selectAlg n = .error c ↔ 1 < n ∧ c = .config := by
  match n with
  | 0 => simp [selectAlg]
  | 1 => simp [selectAlg]
  | n + 2 => simp [selectAlg, eq_comm]

theorem State.selectSlot_eq_ok {s : State} {k : Nat} {ks : KeySlot} :
    s.selectSlot k = .ok ks ↔ k < s.params.nks ∧ ks = s.slot k := by
  unfold State.selectSlot
  split_ifs with h
  · simp; omega
  · simp [eq_comm]; omega

theorem State.selectSlot_eq_error {s : State} {k : Nat} {c : ErrCode} :
    s.selectSlot k = .error c ↔ s.params.nks ≤ k ∧ c = .config := by
  unfold State.selectSlot
  split_ifs with h
  · simp [eq_comm]; omega
  · simp; omega

/-- A keyed command gets its slot exactly when the number is in range and the slot is valid. -/
theorem State.keyedSlot_eq_ok {s : State} {k : Nat} {ks : KeySlot} :
    s.keyedSlot k = .ok ks ↔ k < s.params.nks ∧ (s.slot k).valid = true ∧ ks = s.slot k := by
  simp only [State.keyedSlot, bind_eq_ok, State.selectSlot_eq_ok, raiseIf_eq_ok, pure_eq_ok, Except.ok.injEq]
  constructor
  · rintro ⟨_, ⟨hk, rfl⟩, _, hv, rfl⟩
    exact ⟨hk, by simpa using hv, rfl⟩
  · rintro ⟨hk, hv, rfl⟩
    exact ⟨_, ⟨hk, rfl⟩, (), by simp [hv], rfl⟩

theorem State.keyedSlot_eq_error {s : State} {k : Nat} {c : ErrCode} :
    s.keyedSlot k = .error c ↔
      (s.params.nks ≤ k ∧ c = .config) ∨ (k < s.params.nks ∧ (s.slot k).valid = false ∧ c = .noKey) := by
  simp only [State.keyedSlot, bind_eq_error, State.selectSlot_eq_ok, State.selectSlot_eq_error, raiseIf_eq_error,
    pure_eq_ok, reduceCtorEq, and_false, exists_false, or_false]
  constructor
  · rintro (h | ⟨_, ⟨hk, rfl⟩, hv, rfl⟩)
    · exact .inl h
    · exact .inr ⟨hk, by simpa using hv, rfl⟩
  · rintro (h | ⟨hk, hv, rfl⟩)
    · exact .inl h
    · exact .inr ⟨_, ⟨hk, rfl⟩, by simp [hv], rfl⟩

theorem State.sourceInput_eq_ok {s : State} {b : Bytes} :
    s.sourceInput = .ok b ↔ s.srcAddr.toNat + s.srcLen.toNat ≤ s.params.bufSize ∧ b = s.sourceBytes :=
  State.memRead_eq_ok

theorem State.sourceInput_eq_error {s : State} {c : ErrCode} :
    s.sourceInput = .error c ↔ s.params.bufSize < s.srcAddr.toNat + s.srcLen.toNat ∧ c = .bounds :=
  State.memRead_eq_error

theorem State.seedInput_eq_ok {s : State} {b : Bytes} :
    s.seedInput = .ok b ↔ s.seedAddr.toNat + s.seedLen.toNat ≤ s.params.bufSize ∧ b = s.seedBytes :=
  State.memRead_eq_ok

theorem State.seedInput_eq_error {s : State} {c : ErrCode} :
    s.seedInput = .error c ↔ s.params.bufSize < s.seedAddr.toNat + s.seedLen.toNat ∧ c = .bounds :=
  State.memRead_eq_error

@[simp] theorem State.sourceBytes_length (s : State) : s.sourceBytes.length = s.srcLen.toNat :=
  State.bytesAt_length ..

@[simp] theorem State.seedBytes_length (s : State) : s.seedBytes.length = s.seedLen.toNat :=
  State.bytesAt_length ..

end Sys2Proof.Machine
end

