-- ==== Sys2Proof/Laws/PerInstr.lean ====
section
/-! SUPPORT. The family OpcodeByte, one lemma per command: a well-formed command's word carries its opcode in
OPC and zero in RSV (30_encoding.md R111, R115). -/

namespace Sys2Proof.Laws

/-- The OPC column of 30_encoding.md R115. -/
def OpcodeByte.opcode : Instr → Nat
  | .prfDerive _ => 0x01
  | .keyDerive _ _ _ => 0x02
  | .keyClear _ => 0x03
  | .padFooter _ => 0x04
  | .padStrip => 0x05
  | .cbcEncrypt _ => 0x06
  | .cbcDecrypt _ => 0x07
  | .hmacSign _ => 0x08
  | .hmacVerify _ => 0x09
  | .protectChunk _ => 0x0A
  | .unprotectChunk _ => 0x0B

/-- A well-formed command's word has the command's opcode in OPC and zero in RSV. -/
def OpcodeByte.Statement (i : Instr) : Prop :=
  i.wellFormed = true → fieldOpc (encode i) = OpcodeByte.opcode i ∧ fieldRsv (encode i) = 0

theorem OpcodeByte.prfDerive (hash : Nat) : OpcodeByte.Statement (.prfDerive hash) := by
  intro h
  have h : hash < 4 := by simpa [Instr.wellFormed, selectorFits] using h
  interval_cases hash <;> decide

theorem OpcodeByte.keyDerive (slot hash alg : Nat) : OpcodeByte.Statement (.keyDerive slot hash alg) := by
  intro h
  have h : (slot < 16 ∧ hash < 4) ∧ alg < 4 := by simpa [Instr.wellFormed, selectorFits, slotFits] using h
  have key : ∀ s : Fin 16, ∀ c a : Fin 4,
      fieldOpc (encode (.keyDerive s c a)) = 0x02 ∧ fieldRsv (encode (.keyDerive s c a)) = 0 := by
    decide +kernel
  exact key ⟨slot, h.1.1⟩ ⟨hash, h.1.2⟩ ⟨alg, h.2⟩

theorem OpcodeByte.padFooter (bs : Nat) : OpcodeByte.Statement (.padFooter bs) := by
  intro h
  have h : bs < 256 := by simpa [Instr.wellFormed, immFits] using h
  have key : ∀ b : Fin 256, fieldOpc (encode (.padFooter b)) = 0x04 ∧ fieldRsv (encode (.padFooter b)) = 0 := by
    decide +kernel
  exact key ⟨bs, h⟩

theorem OpcodeByte.padStrip : OpcodeByte.Statement .padStrip := fun _ => by decide

/-- The words whose only operand is a slot number. -/
theorem OpcodeByte.slotOnly {opc slot : Nat} (ho : opc < 12) (hs : slotFits slot = true) :
    fieldOpc (commandWord opc slot 0 0 0) = opc ∧ fieldRsv (commandWord opc slot 0 0 0) = 0 := by
  have hs : slot < 16 := by simpa [slotFits] using hs
  have key : ∀ o : Fin 12, ∀ s : Fin 16,
      fieldOpc (commandWord o s 0 0 0) = o ∧ fieldRsv (commandWord o s 0 0 0) = 0 := by
    decide +kernel
  exact key ⟨opc, ho⟩ ⟨slot, hs⟩

theorem OpcodeByte.keyClear (slot : Nat) : OpcodeByte.Statement (.keyClear slot) :=
  fun h => OpcodeByte.slotOnly (by decide) h

theorem OpcodeByte.cbcEncrypt (slot : Nat) : OpcodeByte.Statement (.cbcEncrypt slot) :=
  fun h => OpcodeByte.slotOnly (by decide) h

theorem OpcodeByte.cbcDecrypt (slot : Nat) : OpcodeByte.Statement (.cbcDecrypt slot) :=
  fun h => OpcodeByte.slotOnly (by decide) h

theorem OpcodeByte.hmacSign (slot : Nat) : OpcodeByte.Statement (.hmacSign slot) :=
  fun h => OpcodeByte.slotOnly (by decide) h

theorem OpcodeByte.hmacVerify (slot : Nat) : OpcodeByte.Statement (.hmacVerify slot) :=
  fun h => OpcodeByte.slotOnly (by decide) h

theorem OpcodeByte.protectChunk (slot : Nat) : OpcodeByte.Statement (.protectChunk slot) :=
  fun h => OpcodeByte.slotOnly (by decide) h

theorem OpcodeByte.unprotectChunk (slot : Nat) : OpcodeByte.Statement (.unprotectChunk slot) :=
  fun h => OpcodeByte.slotOnly (by decide) h

end Sys2Proof.Laws
end

