-- ==== Sys2Proof/Laws/Primitives.lean ====
section
/-! SUPPORT. The lengths of what the primitives give. -/

namespace Sys2Proof.Machine

@[simp] theorem wordBytes_length (w : Word) : (wordBytes w).length = 4 := rfl

@[simp] theorem sha1_length (m : Bytes) : (sha1 m).length = 20 := rfl

@[simp] theorem sha256_length (m : Bytes) : (sha256 m).length = 32 := rfl

/-- The output length of each hash (40_primitives.md R150). -/
@[simp] theorem hashBytes_length (h : HashVariant) (m : Bytes) : (hashBytes h m).length = hlen h := by
  cases h <;> rfl

/-- The HMAC of a hash is as long as the hash (40_primitives.md R153). -/
@[simp] theorem hmac_length (h : HashVariant) (key m : Bytes) : (hmac h key m).length = hlen h :=
  hashBytes_length ..

theorem hlen_pos (h : HashVariant) : 0 < hlen h := by cases h <;> decide

@[simp] theorem constBytes_length (v : Byte) (n : Nat) : (constBytes v n).length = n := List.length_replicate ..

@[simp] theorem xorBytes_length (x y : Bytes) : (xorBytes x y).length = min x.length y.length :=
  List.length_zipWith ..

@[simp] theorem pieces_length (k n : Nat) (b : Bytes) : (pieces k n b).length = n := by
  induction n generalizing b with
  | zero => rfl
  | succ n ih => rw [pieces, List.length_cons, ih]

@[simp] theorem stateOf_length (f : Nat → Nat → Byte) : (stateOf f).length = 16 := by
  simp [stateOf]

@[simp] theorem shiftRows_length (st : Bytes) : (shiftRows st).length = 16 := stateOf_length _

@[simp] theorem invShiftRows_length (st : Bytes) : (invShiftRows st).length = 16 := stateOf_length _

@[simp] theorem mixColumns_length (st : Bytes) : (mixColumns st).length = 16 := by
  simp [mixColumns, mixWith]

@[simp] theorem invMixColumns_length (st : Bytes) : (invMixColumns st).length = 16 := by
  simp [invMixColumns, mixWith]

@[simp] theorem subBytes_length (st : Bytes) : (subBytes st).length = st.length := List.length_map ..

@[simp] theorem invSubBytes_length (st : Bytes) : (invSubBytes st).length = st.length := List.length_map ..

@[simp] theorem computeFooter_length (n bs : Nat) : (computeFooter n bs).length = paddingSize n bs + 1 :=
  constBytes_length ..

@[simp] theorem slice_length (b : Bytes) (i j : Nat) : (slice b i j).length = min (j - i) (b.length - i) := by
  simp [slice]

end Sys2Proof.Machine
end

