-- ==== Sys2Proof/Laws/Step.lean ====
section
/-! SUPPORT. What one step can do, said once: by whose turn it is, and by what a host operation does. -/

namespace Sys2Proof.Machine

/-! ### The host's operations -/

/-- A 32-bit write answers one of: nothing, a register write, a write of four bytes inside `BUF`. -/
theorem State.store32_eq_ok {s t : State} {off : Nat} {v : Word} (h : s.store32 off v = .ok t) :
    t = s ∨ (∃ r, Reg.atOffset off = some r ∧ off < 0x1000 ∧ t = s.writeReg v r)
    ∨ ∃ a, off = 0x10000 + a ∧ off % 4 = 0 ∧ a < s.params.bufSize ∧ t = s.hostWriteBuf a (leBytes v) := by
  unfold State.store32 locate at h
  split_ifs at h with h4 h1 h2 h3 h5 <;> simp only [Except.ok.injEq] at h
  · split at h
    · rename_i r hr
      simp only [Except.ok.injEq] at h
      exact .inr (.inl ⟨r, hr, h1, h.symm⟩)
    · simp only [Except.ok.injEq] at h
      exact .inl h.symm
  · exact .inl h.symm
  · exact .inr (.inr ⟨off - 0x10000, by omega, by omega, by omega, h.symm⟩)

/-- An 8-bit write answers one of: nothing, a write of one byte inside `BUF`. -/
theorem State.store8_eq_ok {s t : State} {off : Nat} {v : Byte} (h : s.store8 off v = .ok t) :
    t = s ∨ ∃ a, off = 0x10000 + a ∧ a < s.params.bufSize ∧ t = s.hostWriteBuf a [v] := by
  unfold State.store8 locate at h
  split_ifs at h with h1 h2 h3 h4 <;> simp only [Except.ok.injEq] at h
  · exact .inl h.symm
  · exact .inr ⟨off - 0x10000, by omega, by omega, h.symm⟩

theorem outcomeOf_eq_next {x : Except Fault State} {t : State} : outcomeOf x = .next t ↔ x = .ok t := by
  cases x <;> simp [outcomeOf]

theorem outcomeOf_eq_fault {x : Except Fault State} {f : Fault} : outcomeOf x = .fault f ↔ x = .error f := by
  cases x <;> simp [outcomeOf]

theorem outcomeOf_ne_refused (x : Except Fault State) (r : Refusal) : outcomeOf x ≠ .refused r := by
  cases x <;> simp [outcomeOf]

/-- Bit 0 of STATUS is BUSY (10_state.md R32). -/
@[simp] theorem State.statusWord_bit_zero (s : State) : s.statusWord.getLsbD 0 = s.busy := by
  rw [State.statusWord, BitVec.getLsbD_append]
  cases s.busy <;> rfl

/-- The same in the bracket form simp prefers (10_state.md R32). -/
@[simp] theorem State.statusWord_getElem_zero (s : State) : s.statusWord[0] = s.busy :=
  s.statusWord_bit_zero

/-- What a host operation can do, with `u` the state after the operation has left the list: a 32-bit write, an 8-bit
write, a read whose value is noted, or a WAIT that ends or stays. -/
theorem State.perform_eq_next {s t : State} {op : HostOp} {rest : List HostOp} (h : s.perform op rest = .next t) :
    (∃ off v, op = .write32 off v ∧ ({ s with hostOps := rest } : State).store32 off.toNat v = .ok t)
    ∨ (∃ off v, op = .write8 off v ∧ ({ s with hostOps := rest } : State).store8 off.toNat v = .ok t)
    ∨ (op.isWrite = false ∧ ∃ v, t = ({ s with hostOps := rest } : State).noteRead v)
    ∨ (op = .wait ∧ ((s.busy = false ∧ t = { s with hostOps := rest }) ∨ (s.busy = true ∧ t = s))) := by
  cases op with
  | write32 off v => exact .inl ⟨off, v, rfl, outcomeOf_eq_next.1 h⟩
  | write8 off v => exact .inr (.inl ⟨off, v, rfl, outcomeOf_eq_next.1 h⟩)
  | read32 off =>
    have h' := outcomeOf_eq_next.1 h
    cases hl : ({ s with hostOps := rest } : State).load32 off.toNat with
    | error f => rw [hl] at h'; cases h'
    | ok v => rw [hl] at h'; cases h'; exact .inr (.inr (.inl ⟨rfl, v, rfl⟩))
  | read8 off =>
    have h' := outcomeOf_eq_next.1 h
    cases hl : ({ s with hostOps := rest } : State).load8 off.toNat with
    | error f => rw [hl] at h'; cases h'
    | ok v => rw [hl] at h'; cases h'; exact .inr (.inr (.inl ⟨rfl, _, rfl⟩))
  | otherWidth off => cases h
  | wait =>
    refine .inr (.inr (.inr ⟨rfl, ?_⟩))
    simp only [State.perform, State.statusWord_bit_zero] at h
    cases hbusy : s.busy
    · rw [hbusy] at h; cases h; exact .inl ⟨rfl, rfl⟩
    · rw [hbusy] at h; cases h; exact .inr ⟨rfl, rfl⟩

/-- A write dropped while busy, else the write. -/
theorem State.unlessBusy_cases (s t : State) :
    (s.busy = true ∧ s.unlessBusy t = s.dropWrite) ∨ (s.busy = false ∧ s.unlessBusy t = t) := by
  unfold State.unlessBusy
  cases s.busy <;> simp

/-! ### The step -/

/-- Every command answers a next state, the completion of its rule. -/
theorem exec_eq_complete (i : Instr) (s : State) : ∃ r, exec i s = .next (s.complete r) := by
  cases i <;> exact ⟨_, rfl⟩

/-- However a command ends, what no command writes is unchanged. -/
theorem State.complete_keeps (s : State) (r : Except ErrCode Effect) : s.keeps (s.complete r) := by
  cases r <;> simp [State.keeps]

/-- A command that ends without error writes the bytes of its effect and no other. -/
theorem State.completeOk_wrote (s : State) (e : Effect) : s.wrote (s.completeOk e) e.dst e.out := fun a => by
  simp [Memory.read_writeBytes]

/-- The state a turn acts on differs from `s` only in its schedule. -/
theorem State.nextTurn_snd (s : State) : s.nextTurn.2 = { s with turns := s.nextTurn.2.turns } := by
  unfold State.nextTurn
  cases s.turns <;> rfl

/-- What a step that answers a next state did, with `u` the state after its turn has left the schedule: a reset, the
completion of a command, nothing, or a host operation. -/
theorem step_eq_next {s t : State} (h : step s = .next t) :
    (s.nextTurn.1 = .reset ∧ t = s.nextTurn.2.assertReset)
    ∨ (s.nextTurn.1 = .engine ∧ s.busy = true ∧ ∃ i, decode s.cmd = .ok i ∧ exec i s.nextTurn.2 = .next t)
    ∨ (s.nextTurn.1 = .engine ∧ s.busy = true ∧ (∃ r, decode s.cmd = .error r)
        ∧ t = s.nextTurn.2.completeError .illegal)
    ∨ (s.nextTurn.1 = .engine ∧ s.busy = false ∧ t = s.nextTurn.2)
    ∨ (s.nextTurn.1 = .host ∧ s.hostOps = [] ∧ t = s.nextTurn.2)
    ∨ (s.nextTurn.1 = .host ∧ ∃ op rest, s.hostOps = op :: rest ∧ s.nextTurn.2.perform op rest = .next t) := by
  have hb : s.nextTurn.2.busy = s.busy := by rw [s.nextTurn_snd]
  have hc : s.nextTurn.2.cmd = s.cmd := by rw [s.nextTurn_snd]
  have ho : s.nextTurn.2.hostOps = s.hostOps := by rw [s.nextTurn_snd]
  unfold step State.advance at h
  cases ht : s.nextTurn.1 with
  | reset => rw [ht] at h; cases h; exact .inl ⟨rfl, rfl⟩
  | engine =>
    rw [ht] at h
    simp only [State.takeTurn, State.engineTurn, hb] at h
    cases hbusy : s.busy with
    | false => rw [hbusy] at h; cases h; simp
    | true =>
      rw [hbusy] at h
      simp only [if_true, State.runCommand, hc] at h
      cases hd : decode s.cmd with
      | ok i => rw [hd] at h; exact .inr (.inl ⟨rfl, rfl, i, rfl, h⟩)
      | error r => rw [hd] at h; cases h; exact .inr (.inr (.inl ⟨rfl, rfl, ⟨r, rfl⟩, rfl⟩))
  | host =>
    rw [ht] at h
    simp only [State.takeTurn, State.hostTurn, ho] at h
    cases hop : s.hostOps with
    | nil => rw [hop] at h; cases h; simp
    | cons op rest =>
      rw [hop] at h
      exact .inr (.inr (.inr (.inr (.inr ⟨rfl, op, rest, rfl, h⟩))))

end Sys2Proof.Machine
end

