-- ==== Sys2Proof/Tests/Slice0.lean ====
section
/-! SUPPORT. The model's own tests. Expected values come from the spec (30_encoding.md R121, 95_test_vectors.md V1 to
V90, or the rule named beside the test). The theorems named witness_… show, for each obligation with hypotheses, a
concrete state and operands that meet all of them. -/

namespace Sys2Proof.Tests

open Sys2Proof Sys2Proof.Machine

-- One theorem after the other: the tests evaluate in the kernel, and a thread for each would not fit.
set_option Elab.async false

/-! ### Well-formedness: an ill-formed command for each check -/

theorem test_wellFormed_refuses_slot_16 : (Instr.keyClear 16).wellFormed = false := by decide
theorem test_wellFormed_refuses_hash_4 : (Instr.prfDerive 4).wellFormed = false := by decide
theorem test_wellFormed_refuses_alg_4 : (Instr.keyDerive 0 0 4).wellFormed = false := by decide
theorem test_wellFormed_refuses_imm_256 : (Instr.padFooter 256).wellFormed = false := by decide
theorem test_wellFormed_accepts_the_largest :
    (Instr.keyDerive 15 3 3).wellFormed = true ∧ (Instr.padFooter 255).wellFormed = true := by decide

/-! ### Decoding: words written out field by field, IMM8 RSV ALG HASH SLOT OPC (30_encoding.md R111, R121) -/

theorem test_decode_prfDerive :
    decode 0b00000000_00000000_00_01_0000_00000001#32 = .ok (.prfDerive 1) := by decide
theorem test_decode_keyDerive :
    decode 0b00000000_00000000_01_00_0001_00000010#32 = .ok (.keyDerive 1 0 1) := by decide
theorem test_decode_keyClear :
    decode 0b00000000_00000000_00_00_0010_00000011#32 = .ok (.keyClear 2) := by decide
theorem test_decode_padFooter :
    decode 0b00010000_00000000_00_00_0000_00000100#32 = .ok (.padFooter 16) := by decide
theorem test_decode_padStrip :
    decode 0b00000000_00000000_00_00_0000_00000101#32 = .ok .padStrip := by decide
theorem test_decode_cbcEncrypt :
    decode 0b00000000_00000000_00_00_1000_00000110#32 = .ok (.cbcEncrypt 8) := by decide
theorem test_decode_cbcDecrypt :
    decode 0b00000000_00000000_00_00_0001_00000111#32 = .ok (.cbcDecrypt 1) := by decide
theorem test_decode_hmacSign :
    decode 0b00000000_00000000_00_00_0001_00001000#32 = .ok (.hmacSign 1) := by decide
theorem test_decode_hmacVerify :
    decode 0b00000000_00000000_00_00_0001_00001001#32 = .ok (.hmacVerify 1) := by decide
theorem test_decode_protectChunk :
    decode 0b00000000_00000000_00_00_0011_00001010#32 = .ok (.protectChunk 3) := by decide
theorem test_decode_unprotectChunk :
    decode 0b00000000_00000000_00_00_1111_00001011#32 = .ok (.unprotectChunk 15) := by decide

/-- 95_test_vectors.md V70: the illegal words. -/
theorem test_decode_illegal_words :
    decode 0x000000FF#32 = .error .unassignedOpcode ∧ decode 0x00004001#32 = .error .unusedFieldSet
      ∧ decode 0x00001005#32 = .error .unusedFieldSet ∧ decode 0x01000006#32 = .error .unusedFieldSet
      ∧ decode 0x00001003#32 = .error .unusedFieldSet := by decide

/-- spec/opcode_table.json numbers the bits of a word as 30_encoding.md R110 does. -/
theorem test_decodeTableWord : decodeTableWord 32 0x0000010B = some (.unprotectChunk 1)
    ∧ decodeTableWord 32 0x0000010C = none := by decide

/-! ### Primitives (95_test_vectors.md V90) -/

/-- The `n` bytes of a number, the first byte first, as the vectors are printed. -/
def bytesOf (n v : Nat) : Bytes := (List.range n).map fun i => BitVec.ofNat 8 (v / 256 ^ (n - 1 - i))

theorem test_sha1_abc :
    hashBytes .sha1 (bytesOf 3 0x616263) = bytesOf 20 0xa9993e364706816aba3e25717850c26c9cd0d89d := by
  decide +kernel
theorem test_sha256_abc : hashBytes .sha256 (bytesOf 3 0x616263)
    = bytesOf 32 0xba7816bf8f01cfea414140de5dae2223b00361a396177a9cb410ff61f20015ad := by
  decide +kernel
theorem test_hmac_sha1 : hmac .sha1 (List.replicate 20 0x0b#8) (bytesOf 8 0x4869205468657265)
    = bytesOf 20 0xb617318655057264e28bc0b6fb378c8ef146be00 := by
  decide +kernel
theorem test_hmac_sha256 : hmac .sha256 (List.replicate 20 0x0b#8) (bytesOf 8 0x4869205468657265)
    = bytesOf 32 0xb0344c61d8db38535ca8afceaf0bf12b881dc200c9833da726e9376c2e32cff7 := by
  decide +kernel
theorem test_aes128 :
    aesEnc (bytesOf 16 0x000102030405060708090a0b0c0d0e0f) (bytesOf 16 0x00112233445566778899aabbccddeeff)
      = bytesOf 16 0x69c4e0d86a7b0430d8cdb78070b4c55a := by
  decide +kernel
theorem test_aes256 :
    aesEnc (bytesOf 32 0x000102030405060708090a0b0c0d0e0f101112131415161718191a1b1c1d1e1f)
        (bytesOf 16 0x00112233445566778899aabbccddeeff)
      = bytesOf 16 0x8ea2b7ca516745bfeafc49904b496089 := by
  decide +kernel
theorem test_aes256_decrypt :
    aesDec (bytesOf 32 0x000102030405060708090a0b0c0d0e0f101112131415161718191a1b1c1d1e1f)
        (bytesOf 16 0x8ea2b7ca516745bfeafc49904b496089)
      = bytesOf 16 0x00112233445566778899aabbccddeeff := by
  decide +kernel

/-! ### The bench: a small block with the slot of V20 -/

/-- The smallest buffer and two slots, one of which is filled. -/
def benchParams : Params := { bufAddrBits := 8, nks := 2, maxSkl := 128 }

/-- The KAT secret and the KAT seed (95_test_vectors.md S1). -/
def katSecret : Bytes := bytesOf 32 0x192e689557af60c238bd6d437ffec55291dc249a294ecce9eaca1d94ae3facff
/-- See `katSecret`. -/
def katSeed : Bytes := bytesOf 32 0x2e617d3237fd95831af589316438da4457ba88c01f45e2a3ce12c70f1dfbea30

/-- The slot KEY_DERIVE 0, AES128, SHA1 leaves (95_test_vectors.md V20). -/
def v20Slot : KeySlot :=
  { valid := true, alg := .aes128cbc, hash := .sha1, skl := 128, ekl := 16, ebs := 16, sgl := 20
    sk := bytesOf 32 0x64c38fd4d15ae5529343c2366b01970e3cca3feebce9eba389a9e00207f937e4
      ++ bytesOf 32 0x2863d565586918428cfb06426422e77c0d6d0596ad4a0c5457cef597088b1d21
      ++ bytesOf 32 0x4230b62a89b55d5854b77d23221512fc05af21513cf72539dbc226e7d8fe1764
      ++ bytesOf 32 0x19b7958495b5a9b76aff943ae99f87719b485803c367b61787fef60421b578e9
    ek := bytesOf 16 0xd73bafe1442452200117f577227eeccc
    iv := bytesOf 16 0x3e80b48b376608cec48e44873c5d3f19 }

/-- The bench with a string at `BUF 0`, which is the source, and the output region at 0xC0. -/
def bench (b : Bytes) : State :=
  { State.resetWith benchParams with
    slots := [v20Slot, KeySlot.empty]
    buf := Memory.writeBytes [] 0 b
    srcLen := BitVec.ofNat 32 b.length, dstAddr := 0xC0 }

/-- The bench of the deriving commands: the KAT secret at `BUF 0` and the KAT seed at `BUF 0x20`, with the lengths of
V23. -/
def deriveBench : State :=
  { bench (katSecret ++ katSeed) with
    srcLen := 32, seedAddr := 0x20, seedLen := 32, outLen := 1, kcfgSkl := 0, kcfgEkl := 16, kcfgEbs := 16, kcfgSgl := 20 }

/-- The bench of the selector tests, an engine that has accepted the word. -/
def accepted (w : Word) : State := (bench []).accept w

/-- The next state of an outcome; the empty reset block where there is none. -/
def nextOf : Host.Outcome State Fault Refusal → State
  | .next t => t
  | _ => State.resetWith benchParams

/-- STATUS, RESULT_LEN and `n` bytes at the output address, none for an unwritten one. -/
def shown (t : State) (n : Nat) : Word × Nat × List (Option Byte) :=
  (t.statusWord, t.resultLen.toNat, (List.range n).map fun i => t.buf.read (t.dstAddr.toNat + i))

/-- What a completed command shows with the given output. -/
def shows (status : Word) (len : Nat) (out : Bytes) : Word × Nat × List (Option Byte) := (status, len, out.map some)

/-! ### The commands, one step each -/

/-- V2, SHA1, `L = 1`; the first byte of V1. -/
theorem test_prfDerive : shown (nextOf (exec (.prfDerive 0) deriveBench)) 1 = shows 0x002#32 1 [0x64] := by
  decide +kernel
/-- V72: OUT_LEN 0 is CONFIG, before BOUNDS. -/
theorem test_prfDerive_config_first :
    shown (nextOf (exec (.prfDerive 0) { deriveBench with outLen := 0, srcAddr := 0x20000 })) 0
      = shows 0x206#32 0 [] := by
  decide +kernel
/-- V23: SKL 0 derives EK and IV from the first 32 bytes of the stream. -/
theorem test_keyDerive : (nextOf (exec (.keyDerive 1 0 0) deriveBench)).slot 1
    = { v20Slot with
        skl := 0, sk := []
        ek := bytesOf 16 0x64c38fd4d15ae5529343c2366b01970e
        iv := bytesOf 16 0x3cca3feebce9eba389a9e00207f937e4 } := by
  decide +kernel
/-- V24: slot 0 already valid. -/
theorem test_keyDerive_slotInUse : shown (nextOf (exec (.keyDerive 0 0 0) deriveBench)) 0 = shows 0x606#32 0 [] := by
  decide +kernel
/-- V25: a cleared slot shows KMETA 0. -/
theorem test_keyClear : ((nextOf (exec (.keyClear 0) (bench []))).slot 0).kmeta = 0
    ∧ shown (nextOf (exec (.keyClear 0) (bench []))) 0 = shows 0x002#32 0 [] := by
  decide +kernel
/-- V30: `L = 15` gives the longest footer. -/
theorem test_padFooter : shown (nextOf (exec (.padFooter 16) (bench (List.replicate 15 0#8)))) 17
    = shows 0x002#32 17 (List.replicate 17 0x10#8) := by
  decide +kernel
/-- V31: SRC_LEN is a number and no region. -/
theorem test_padFooter_large : shown (nextOf (exec (.padFooter 16) { bench [] with srcLen := 0xFFFFFFFF#32 })) 17
    = shows 0x002#32 17 (List.replicate 17 0x10#8) := by
  decide +kernel
/-- V32: only the last byte is read. -/
theorem test_padStrip : shown (nextOf (exec .padStrip (bench [0xAA, 0x00, 0x01]))) 0 = shows 0x002#32 1 [] := by
  decide +kernel
/-- V32: two bytes to strip from one. -/
theorem test_padStrip_protocol : shown (nextOf (exec .padStrip (bench [0x01]))) 0 = shows 0x306#32 0 [] := by
  decide +kernel
/-- V40. -/
theorem test_cbcEncrypt : shown (nextOf (exec (.cbcEncrypt 0) (bench (List.replicate 16 0#8)))) 16
    = shows 0x002#32 16 (bytesOf 16 0xbb3fb7cfc65f7e49ceb803c55039ad59) := by
  decide +kernel
/-- V72: a part of a block is PROTOCOL. -/
theorem test_cbcEncrypt_protocol :
    shown (nextOf (exec (.cbcEncrypt 0) (bench (List.replicate 17 0#8)))) 0 = shows 0x306#32 0 [] := by
  decide +kernel
/-- V41. -/
theorem test_cbcDecrypt :
    shown (nextOf (exec (.cbcDecrypt 0) (bench (bytesOf 16 0xbb3fb7cfc65f7e49ceb803c55039ad59)))) 16
      = shows 0x002#32 16 (List.replicate 16 0#8) := by
  decide +kernel
/-- V71: slot 1 is empty. -/
theorem test_cbcDecrypt_noKey : shown (nextOf (exec (.cbcDecrypt 1) (bench []))) 0 = shows 0x506#32 0 [] := by
  decide +kernel

/-- "Hello" (V50). -/
def hello : Bytes := bytesOf 5 0x48656c6c6f
/-- The signature of "Hello" (V50). -/
def helloSignature : Bytes := bytesOf 20 0x7b12e26d3fd67aec165ab0e7525502da5e7df20a
/-- The chunk of "Hello" (V60). -/
def helloChunk : Bytes := bytesOf 32 0xa7cd3e9be6cb1594126f8b0a3f7b9a0ee16186aa875edd28d340ea3dae9d7d72

/-- V50. -/
theorem test_hmacSign : shown (nextOf (exec (.hmacSign 0) (bench hello))) 20 = shows 0x002#32 20 helloSignature := by
  decide +kernel
/-- V51. -/
theorem test_hmacVerify :
    shown (nextOf (exec (.hmacVerify 0) (bench (hello ++ helloSignature)))) 0 = shows 0x00A#32 5 [] := by
  decide +kernel
/-- V52: the last byte changed. -/
theorem test_hmacVerify_mismatch :
    shown (nextOf (exec (.hmacVerify 0) (bench (bytesOf 25 0x48656c6c6f7b12e26d3fd67aec165ab0e7525502da5e7df28a)))) 0
      = shows 0x002#32 5 [] := by
  decide +kernel
/-- V60. -/
theorem test_protectChunk :
    shown (nextOf (exec (.protectChunk 0) (bench hello))) 32 = shows 0x002#32 32 helloChunk := by
  decide +kernel
/-- V61. -/
theorem test_unprotectChunk :
    shown (nextOf (exec (.unprotectChunk 0) (bench helloChunk))) 5 = shows 0x00A#32 5 hello := by
  decide +kernel
/-- V63: the first byte of the chunk changed; the message is written all the same. -/
theorem test_unprotectChunk_tampered :
    shown (nextOf (exec (.unprotectChunk 0)
        (bench (bytesOf 32 0xa6cd3e9be6cb1594126f8b0a3f7b9a0ee16186aa875edd28d340ea3dae9d7d72)))) 5
      = shows 0x002#32 5 (bytesOf 5 0x499306badc) := by
  decide +kernel

/-! ### The step and the bus -/

/-- A word placed by withFetchWord is the first command after reset; slot 0 is empty then (program P3). -/
theorem test_step_runs_the_word :
    (nextOf (step (State.reset.withFetchWord 32 0x00000006))).statusWord = 0x506#32 := by
  decide +kernel
/-- V70: an undefined word. -/
theorem test_step_illegal : (nextOf (step (State.reset.withFetchWord 32 0x0000000C))).statusWord = 0x106#32 := by
  decide +kernel
/-- 10_state.md R33, R34 (program P3). -/
theorem test_identity :
    State.reset.load32 0x000 = .ok 0x50524631#32 ∧ State.reset.load32 0x004 = .ok 0x01000210#32 := by
  decide +kernel
/-- V20: the key-slot window. -/
theorem test_window : (bench []).load32 0x1000 = .ok 0x00000001#32 ∧ (bench []).load32 0x1004 = .ok 0x80#32
    ∧ (bench []).load32 0x1008 = .ok 0x00141010#32 ∧ (bench []).load32 0x1010 = .ok 0x8bb4803e#32
    ∧ (bench []).load8 0x1020 = .ok 0xd7#8 := by
  decide +kernel
/-- V73: a write while busy is dropped and sets WERR. -/
theorem test_write_while_busy : (accepted 6).store32 0x028 99 = .ok { accepted 6 with werr := true } := by
  decide +kernel
/-- 20_memory.md R82, R84, R85: each bus error of an 8-bit or 32-bit access. -/
theorem test_bus_errors : (bench []).load32 0x10002 = .error .busErrorMisaligned
    ∧ (bench []).load8 0x00C = .error .busErrorRegisterByte ∧ (bench []).load32 0x5000 = .error .busErrorUnmapped
    ∧ (bench []).store32 0x10100 0 = .error .busErrorUnmapped := by
  decide +kernel
/-- 20_memory.md R83: an 8-bit write to `BUF` stores its one byte; the bytes beside it stay. -/
theorem test_byte_write : ((bench hello).store8 0x10003 0x21).map (fun t => t.load32 0x10000)
    = .ok (.ok 0x216c6548#32) := by
  decide +kernel
/-- 20_memory.md R82: an access of another width. -/
theorem test_bus_error_width :
    step { bench [] with hostOps := [.otherWidth 0x10000#32] } = .fault .busErrorWidth := rfl

/-! ### Witnesses: concrete states and operands that meet the hypotheses of each obligation -/

theorem witness_DecodeOfEncodeIsTheCommand : (Instr.keyDerive 15 3 3).wellFormed = true
    ∧ (Instr.padFooter 255).wellFormed = true ∧ (Instr.unprotectChunk 0).wellFormed = true := by decide
theorem witness_EncodeOfDecodeIsTheWord : decode 0x0000FF02#32 = .ok (.keyDerive 15 3 3) := by decide

theorem witness_StepRunsTheDecodedCommand :
    ((accepted 6).busy = true ∧ (accepted 6).turns = [] ∧ decode (accepted 6).cmd = .ok (.cbcEncrypt 0))
    ∧ ((bench []).commandPending 6).turns = [.engine] ∧ decode (BitVec.ofNat 32 6) = .ok (.cbcEncrypt 0) := by
  decide +kernel
theorem witness_IllegalWordCompletesWithIllegal : (accepted 0x0C).busy = true ∧ (accepted 0x0C).turns = []
    ∧ decode (accepted 0x0C).cmd = .error .unassignedOpcode := by decide +kernel
/-- A bench whose host has one operation left. -/
def hostBench (op : HostOp) : State := { bench [] with hostOps := [op] }

/-- A busy block whose next turn the schedule gives to the host, with one operation left. -/
def busyHost (op : HostOp) : State := { accepted 6 with turns := [.host], hostOps := [op] }

/-- The two ways a host turn comes: by default while idle, and from the schedule while busy; and a load of each kind
that answers and that draws a bus error. -/
theorem witness_HostTurnIssuesTheNextOperation :
    (∀ op, (hostBench op).hostOps = op :: [] ∧ (hostBench op).turns = [] ∧ (hostBench op).busy = false)
    ∧ (∀ op, (busyHost op).hostOps = op :: [] ∧ (busyHost op).turns = .host :: [] ∧ (busyHost op).busy = true)
    ∧ (hostBench (.read32 0x1000#32)).load32 (0x1000#32).toNat = .ok 1#32
    ∧ (busyHost (.read32 0x00C#32)).load32 (0x00C#32).toNat = .ok 1#32
    ∧ (hostBench (.read32 0x1002#32)).load32 (0x1002#32).toNat = .error .busErrorMisaligned
    ∧ (hostBench (.read8 0x1020#32)).load8 (0x1020#32).toNat = .ok 0xd7#8
    ∧ (hostBench (.read8 0x00C#32)).load8 (0x00C#32).toNat = .error .busErrorRegisterByte := by
  refine ⟨fun _ => ⟨rfl, rfl, rfl⟩, fun _ => ⟨rfl, rfl, rfl⟩, ?_⟩
  decide +kernel
theorem witness_ResetStateIsAsTheSpecSays : Params.legal ⟨8, 1, 128⟩ = true ∧ Params.legal ⟨16, 16, 960⟩ = true
    ∧ Reg.status ≠ .id ∧ Reg.status ≠ .caps := by decide
theorem witness_EveryCommandCompletes : (accepted 6).busy = true ∧ (accepted 0x0C).busy = true := by decide +kernel
theorem witness_ResetMeetsTheInvariant : Params.legal ⟨8, 1, 128⟩ = true ∧ Params.legal ⟨16, 16, 960⟩ = true
    ∧ Params.legal Params.default = true := by decide
theorem witness_ResetInputRestoresTheResetState :
    ({ accepted 6 with turns := [.reset, .host] } : State).turns = .reset :: [.host] := rfl

/-- The bench meets the invariant; so does an engine that has accepted a word. -/
theorem test_bench_inv : (bench []).inv = true ∧ (accepted 6).inv = true ∧ deriveBench.inv = true := by decide +kernel

theorem witness_StepKeepsTheInvariant : (accepted 3).inv = true
    ∧ step (accepted 3) = .next (nextOf (exec (.keyClear 0) (accepted 3))) := ⟨by decide +kernel, rfl⟩

/-- A valid slot that KEY_CLEAR empties, so the second alternative and the changed slot file both occur. -/
theorem witness_ValidSlotIsImmutable : ∃ t, step (accepted 3) = .next t ∧ ((accepted 3).slot 0).valid = true
    ∧ t.slot 0 = KeySlot.empty ∧ t.slots ≠ (accepted 3).slots :=
  ⟨nextOf (exec (.keyClear 0) (accepted 3)), rfl, by decide +kernel, by decide +kernel, by decide +kernel⟩

theorem witness_WriteErrorFlagIsSticky :
    (∃ t, step { bench [] with werr := true, hostOps := [.write32 0x00C#32 0x10#32] } = .next t ∧ t.werr = false)
    ∧ (∃ t, step { accepted 6 with turns := [.host], hostOps := [.write32 0x028#32 99#32] } = .next t
        ∧ (accepted 6).werr = false ∧ t.werr = true) :=
  ⟨⟨_, rfl, by decide +kernel⟩, ⟨_, rfl, by decide +kernel, by decide +kernel⟩⟩

/-- A schedule without a reset and one with a reset. -/
theorem witness_AcceptedCommandCompletes :
    (let s : State :=
      { accepted 6 with turns := [.host, .host], hostOps := [.wait, .read32 0x00C#32, .write8 0x100FF#32 0] };
      s.busy = true ∧ .reset ∉ s.turns)
    ∧ ({ accepted 6 with turns := [.host, .reset] } : State).busy = true
    ∧ ∀ op ∈ ([.wait, .read32 0x00C#32, .write8 0x100FF#32 0] : List HostOp), op.allowed benchParams = true := by
  decide +kernel

theorem witness_WrittenInputsLeaveNothingFree : deriveBench.sourceWritten ∧ deriveBench.seedWritten := by
  unfold State.sourceWritten State.seedWritten
  decide +kernel

/-- PRF_DERIVE with its output ending at the last byte of `BUF`. -/
theorem witness_PrfDeriveWritesTheStream :
    let s : State := { deriveBench with outLen := 64 }
    s.inv = true ∧ s.outLen ≠ 0 ∧ s.sourceInside ∧ s.seedInside ∧ s.outputInside s.outLen.toNat := by
  unfold State.sourceInside State.seedInside State.outputInside
  decide +kernel

/-- KEY_DERIVE at the largest SKL, with each algorithm and hash. -/
theorem witness_KeyDeriveFillsTheSlot :
    (let s : State := { deriveBench with kcfgSkl := 128 };
      s.inv = true ∧ 1 < s.params.nks ∧ (s.slot 1).valid = false
        ∧ s.kcfgEbs = 16 ∧ s.kcfgEkl.toNat = klen .aes128cbc ∧ s.kcfgSgl.toNat = hlen .sha1
        ∧ s.kcfgSkl.toNat ≤ s.params.maxSkl ∧ s.sourceInside ∧ s.seedInside)
    ∧ (let s : State := { deriveBench with kcfgEkl := 32, kcfgSgl := 32 };
      s.inv = true ∧ s.kcfgEkl.toNat = klen .aes256cbc ∧ s.kcfgSgl.toNat = hlen .sha256
        ∧ s.sourceInside ∧ s.seedInside) := by
  unfold State.sourceInside State.seedInside
  decide +kernel

theorem witness_KeyClearEmptiesTheSlot : (bench []).inv = true ∧ 0 < (bench []).params.nks
    ∧ 1 < (bench []).params.nks ∧ ((bench []).slot 1).valid = false := by decide +kernel

/-- PAD_FOOTER with the longest footer of block size 16 and of block size 1, each ending inside `BUF`. -/
theorem witness_PadFooterWritesTheFooter :
    (let s := bench (List.replicate 15 0#8);
      s.inv = true ∧ 16 = 16 - (s.srcLen.toNat + 1) % 16 ∧ s.outputInside (16 + 1))
    ∧ (let s := bench [];
      s.inv = true ∧ 1 = 1 - (s.srcLen.toNat + 1) % 1 ∧ s.outputInside (1 + 1))
    ∧ (let s : State := { bench [] with srcLen := 1, dstAddr := 0 };
      s.inv = true ∧ 253 = 255 - (s.srcLen.toNat + 1) % 255 ∧ s.outputInside (253 + 1)) := by
  unfold State.outputInside
  decide +kernel

/-- PAD_STRIP of everything (`n + 1 = SRC_LEN`) and of a part. -/
theorem witness_PadStripReportsTheLength :
    (let s := bench [0x01, 0x01];
      s.inv = true ∧ s.sourceInside ∧ s.srcLen ≠ 0
        ∧ 1 = (s.byteAt firstPort (s.srcAddr.toNat + s.srcLen.toNat - 1)).toNat ∧ 1 + 1 ≤ s.srcLen.toNat)
    ∧ (let s := bench [0xAA, 0x01, 0x01];
      s.inv = true ∧ s.sourceInside
        ∧ 1 = (s.byteAt firstPort (s.srcAddr.toNat + s.srcLen.toNat - 1)).toNat ∧ 1 + 1 ≤ s.srcLen.toNat) := by
  unfold State.sourceInside
  decide +kernel

/-- The cipher commands on 64 bytes whose output ends at the last byte of `BUF`, and on no byte. -/
theorem witness_CbcEncryptWritesTheCiphertext :
    (let s := bench (List.replicate 64 0#8);
      s.inv = true ∧ s.keyed 0 ∧ s.sourceInside ∧ s.srcLen.toNat % 16 = 0 ∧ s.outputInside s.srcLen.toNat)
    ∧ (let s := bench [];
      s.inv = true ∧ s.keyed 0 ∧ s.sourceInside ∧ s.srcLen.toNat % 16 = 0 ∧ s.outputInside s.srcLen.toNat) := by
  unfold State.keyed State.sourceInside State.outputInside
  decide +kernel
theorem witness_CbcDecryptWritesThePlaintext :
    let s := bench helloChunk
    s.inv = true ∧ s.keyed 0 ∧ s.sourceInside ∧ s.srcLen.toNat % 16 = 0 ∧ s.outputInside s.srcLen.toNat :=
  by unfold State.keyed State.sourceInside State.outputInside; decide +kernel

theorem witness_HmacSignWritesTheSignature :
    let s : State := { bench hello with dstAddr := 236 }
    s.inv = true ∧ s.keyed 0 ∧ s.sourceInside ∧ s.outputInside (s.slot 0).sgl.toNat := by
  unfold State.keyed State.sourceInside State.outputInside
  decide +kernel

/-- HMAC_VERIFY of a message, and of the empty message. -/
theorem witness_HmacVerifyReportsTheVerdict :
    (let s := bench (hello ++ helloSignature);
      s.inv = true ∧ s.keyed 0 ∧ s.sourceInside ∧ s.srcLen.toNat = 5 + (s.slot 0).sgl.toNat)
    ∧ (let s := bench helloSignature;
      s.inv = true ∧ s.keyed 0 ∧ s.sourceInside ∧ s.srcLen.toNat = 0 + (s.slot 0).sgl.toNat) := by
  unfold State.keyed State.sourceInside
  decide +kernel

/-- PROTECT_CHUNK of "Hello" and of the empty plaintext, the chunk ending at the last byte of `BUF`. -/
theorem witness_ProtectChunkWritesTheChunk :
    (let s : State := { bench hello with dstAddr := 0xE0 };
      s.inv = true ∧ s.keyed 0 ∧ s.sourceInside ∧ 6 = 16 - (s.srcLen.toNat + (s.slot 0).sgl.toNat + 1) % 16
        ∧ s.outputInside (s.srcLen.toNat + (s.slot 0).sgl.toNat + 6 + 1))
    ∧ (let s : State := { bench [] with dstAddr := 0xE0 };
      s.inv = true ∧ s.keyed 0 ∧ s.sourceInside ∧ 11 = 16 - (s.srcLen.toNat + (s.slot 0).sgl.toNat + 1) % 16
        ∧ s.outputInside (s.srcLen.toNat + (s.slot 0).sgl.toNat + 11 + 1)) := by
  unfold State.keyed State.sourceInside State.outputInside
  decide +kernel

/-- UNPROTECT_CHUNK of the chunk of "Hello": footer byte 6, message length 5, written to the last bytes of `BUF`. -/
theorem witness_UnprotectChunkWritesTheMessage :
    let s : State := { bench helloChunk with dstAddr := 251 }
    s.inv = true ∧ s.keyed 0 ∧ s.sourceInside ∧ s.srcLen.toNat % 16 = 0 ∧ s.srcLen ≠ 0
      ∧ (cbcDec (s.slot 0).ek (s.slot 0).iv s.sourceBytes)[s.srcLen.toNat - 1]? = some (BitVec.ofNat 8 6)
      ∧ s.srcLen.toNat = 5 + (s.slot 0).sgl.toNat + (6 + 1) ∧ s.outputInside 5 := by
  unfold State.keyed State.sourceInside State.outputInside
  decide +kernel

/-- The error orders ask the invariant of the state and nothing else. -/
theorem witness_CipherAndSignatureErrorOrder : (bench hello).inv = true := by decide +kernel
theorem witness_ChunkErrorOrder : (bench helloChunk).inv = true
    ∧ 20 = ((bench helloChunk).slot 0).sgl.toNat ∧ 52 = (bench helloChunk).srcLen.toNat + 20 := by decide +kernel

theorem witness_PrfStreamsAreConsistent : 1 ≤ 20 ∧ 20 < 21 := by decide
theorem witness_PrfIsItsBlocks : 1 ≤ 1 ∧ 1 ≤ 21 := by decide
/-- The whole extra block (`n = 15` with block size 16), and a length at each residue. -/
theorem witness_FooterAlignsTheBuffer : 1 ≤ 16 ∧ 16 = 16 - (15 + 1) % 16 ∧ (15 + 1) % 16 = 0
    ∧ 14 % 16 = 14 ∧ 31 % 16 = 15 ∧ 0 % 16 = 0 := by decide
theorem witness_StripFooterInvertsComputeFooter : 1 ≤ 1 ∧ 1 ≤ 255 ∧ 255 ≤ 255 := by decide
/-- 0x53 and 0xCA are inverses (FIPS 197, section 4.2), and 0 stands for itself. -/
theorem witness_SubstitutionTablesAreTheirDefinition : gfMul 0x53 0xCA = 1 ∧ (0 : Byte) = 0 ∧ (0x53 : Byte) ≠ 0 := by
  decide +kernel
theorem witness_AesDecryptionInvertsEncryption : v20Slot.ek.length = 16 ∧ katSeed.length = 32 ∧ v20Slot.iv.length = 16 :=
  by decide +kernel
theorem witness_CbcDecryptionInvertsEncryption : v20Slot.ek.length = 16 ∧ katSeed.length = 32 ∧ v20Slot.iv.length = 16
    ∧ helloChunk.length % 16 = 0 := by decide +kernel

/-- A message whose signature ends at the last byte of `BUF`. -/
theorem witness_SignedMessageVerifies :
    let s : State := { bench (List.replicate 236 0#8 ++ hello) with srcAddr := 231, srcLen := 5 }
    s.inv = true ∧ s.keyed 0 ∧ s.sourceWritten ∧ 25 = s.srcLen.toNat + (s.slot 0).sgl.toNat
      ∧ s.srcAddr.toNat + 25 ≤ s.params.bufSize := by
  unfold State.keyed State.sourceWritten
  decide +kernel
theorem witness_UnprotectInvertsProtect :
    let s : State := { bench hello with dstAddr := 0xE0 }
    s.inv = true ∧ s.keyed 0 ∧ s.sourceInside ∧ 25 = s.srcLen.toNat + (s.slot 0).sgl.toNat
      ∧ s.outputInside (25 + (16 - (25 + 1) % 16) + 1) ∧ (251#32).toNat + s.srcLen.toNat ≤ s.params.bufSize := by
  unfold State.keyed State.sourceInside State.outputInside
  decide +kernel
theorem witness_UnitCommandsBuildTheChunk :
    let s : State := { bench hello with dstAddr := 0xE0 }
    s.inv = true ∧ s.keyed 0 ∧ s.sourceWritten ∧ 25 = s.srcLen.toNat + (s.slot 0).sgl.toNat
      ∧ 32 = 25 + (16 - (25 + 1) % 16) + 1 ∧ s.srcAddr.toNat + 32 ≤ s.params.bufSize ∧ s.outputInside 32 := by
  unfold State.keyed State.sourceWritten State.outputInside
  decide +kernel

theorem witness_IdentityRegistersAreReadOnly : State.reset.params.legal = true ∧ State.reset.params = Params.default
    ∧ (bench []).params.legal = true := by decide +kernel
/-- The edges of the offsets the register page leaves reserved. -/
theorem witness_RegisterPageReadsAsTheTable : 0x038 ≤ 0x038 ∧ 0x038 < 0x1000 ∧ 0x038 % 4 = 0 ∧ 0x038 ≤ 0xFFC
    ∧ 0xFFC < 0x1000 ∧ 0xFFC % 4 = 0 := by decide
theorem witness_OperandWritesAreStored : (bench []).busy = false := by decide +kernel
theorem witness_CommandWriteIsAccepted : (bench []).busy = false ∧ decode 0x0C#32 = .error .unassignedOpcode := by
  decide +kernel
/-- A busy engine, the last byte and the last word of `BUF`, and the edges of the ignored ranges. -/
theorem witness_BusyWritesAreDropped : (accepted 6).busy = true ∧ 255 < (accepted 6).params.bufSize
    ∧ 252 < (accepted 6).params.bufSize ∧ 252 % 4 = 0 ∧ 0x038 < 0x5000 ∧ 0x4FFC < 0x5000 ∧ 0x4FFC % 4 = 0
    ∧ 0x1000 ≤ 0x4FFF ∧ 0x4FFF < 0x5000 := by decide +kernel
theorem witness_BusyHostTurnsFreezeTheCommand : ∃ t,
    ({ accepted 6 with turns := [.host], hostOps := [.write32 0x014#32 7] } : State).nextTurn.1 = .host
    ∧ step { accepted 6 with turns := [.host], hostOps := [.write32 0x014#32 7] } = .next t :=
  ⟨_, rfl, rfl⟩
theorem witness_BusyStatusShowsNoResult : (accepted 6).inv = true ∧ (accepted 6).busy = true := by decide +kernel
/-- A slot of the file, the last slot of the window, and the edges of each byte range. -/
theorem witness_KeyWindowShowsTheSlot : (bench []).busy = false ∧ 1 < (bench []).params.nks
    ∧ (bench []).params.nks ≤ 2 ∧ (bench []).params.nks ≤ 15 ∧ 0x4C00 = 0x1000 + 0x400 * 15 ∧ 0x3FF < 0x400
    ∧ (bench []).load8 0x101F = .ok 0x19#8 ∧ (bench []).load8 0x10C0 = .ok 0 := by decide +kernel
/-- The last word and the last byte of `BUF`, and a byte and a word written before. -/
theorem witness_BufferWordsAreLittleEndian : (bench hello).busy = false ∧ 252 % 4 = 0
    ∧ 252 + 4 ≤ (bench hello).params.bufSize ∧ 255 < (bench hello).params.bufSize
    ∧ (bench hello).buf.read 4 = some 0x6f
    ∧ ∀ i, i < 4 → (bench hello).buf.read (0 + i) = some ((0x6c6c6548#32).extractLsb' (8 * i) 8) := by decide +kernel
theorem witness_HostReadsLeaveTheBlock : ∃ t,
    ({ bench [] with hostOps := [.read32 0x00C#32] } : State).nextTurn.1 = .host
    ∧ HostOp.isWrite (.read32 0x00C#32) = false ∧ step { bench [] with hostOps := [.read32 0x00C#32] } = .next t :=
  ⟨_, rfl, rfl, rfl⟩
theorem witness_InterruptFollowsDone :
    ((accepted 3).busy = true ∧ ∃ t, (accepted 3).engineTurn = .next t)
    ∧ (∃ t, (bench []).store32 0x00C 2 = .ok t ∧ (2#32).getLsbD 1 = true)
    ∧ (bench []).busy = false ∧ ∃ t, (bench []).store32 0x010 3 = .ok t :=
  ⟨⟨by decide +kernel, _, rfl⟩, ⟨_, rfl, by decide⟩, by decide +kernel, _, rfl⟩

end Sys2Proof.Tests
end

section
/-! SUPPORT. Register accesses by name, register words as numbers, and what a host write leaves unchanged
(10_state.md R32 to R48). -/

namespace Sys2Proof.Machine

/-! ### Registers by name -/

/-- A read at a register's offset answers that register (10_state.md R32). -/
theorem State.load32_register (s : State) (r : Reg) : s.load32 r.offset = .ok (s.readReg r) := by
  cases r <;> rfl

/-- A write at a register's offset is the write of that register (10_state.md R32). -/
theorem State.store32_register (s : State) (v : Word) (r : Reg) :
    s.store32 r.offset v = .ok (s.writeReg v r) := by
  cases r <;> rfl

theorem Reg.offset_lt (r : Reg) : r.offset < 0x038 := by cases r <;> decide

/-- The table of 10_state.md R32 lists no offset from 0x038 on. -/
theorem Reg.atOffset_reserved {off : Nat} (h : 0x038 ≤ off) : Reg.atOffset off = none := by
  refine List.find?_eq_none.2 fun r _ => ?_
  have := r.offset_lt
  simp only [decide_eq_true_eq]
  omega

theorem State.load32_reserved (s : State) {off : Nat} (h : 0x038 ≤ off) (hp : off < 0x1000) (h4 : off % 4 = 0) :
    s.load32 off = .ok 0 := by
  rw [State.load32, if_neg (by omega), locate_register _ hp]
  simp only [Reg.atOffset_reserved h]

theorem State.store32_reserved (s : State) (v : Word) {off : Nat} (h : 0x038 ≤ off) (hp : off < 0x1000)
    (h4 : off % 4 = 0) : s.store32 off v = .ok s := by
  rw [State.store32, if_neg (by omega), locate_register _ hp]
  simp only [Reg.atOffset_reserved h]

theorem State.store32_window (s : State) (v : Word) {j : Nat} (h : j < 0x4000) (h4 : j % 4 = 0) :
    s.store32 (0x1000 + j) v = .ok s := by
  rw [State.store32, if_neg (by omega), locate_window _ h]

theorem State.store8_window (s : State) (b : Byte) {j : Nat} (h : j < 0x4000) :
    s.store8 (0x1000 + j) b = .ok s := by
  rw [State.store8, locate_window _ h]

/-! ### Register words as numbers -/

/-- The number of two fields side by side. -/
theorem toNat_append_eq_add {m n : Nat} (x : BitVec m) (y : BitVec n) :
    (x ++ y).toNat = x.toNat * 2 ^ n + y.toNat := by
  rw [BitVec.toNat_append, ← Nat.shiftLeft_add_eq_or_of_lt y.isLt, Nat.shiftLeft_eq]

@[simp] theorem bit_toNat (b : Bool) : (bit b).toNat = b.toNat := by cases b <;> rfl

/-- STATUS as a number (10_state.md R32, R36). -/
theorem State.statusWord_toNat (s : State) : s.statusWord.toNat
    = s.busy.toNat + 2 * s.done.toNat + 4 * s.err.toNat + 8 * s.auth.toNat + 16 * s.werr.toNat
      + 256 * s.errCode.code.toNat := by
  simp only [State.statusWord, toNat_append_eq_add, bit_toNat, BitVec.toNat_zero]
  omega

theorem State.readReg_ctrl_toNat (s : State) : (s.readReg .ctrl).toNat = s.ctrlIE.toNat := by
  simp only [State.readReg, toNat_append_eq_add, bit_toNat, BitVec.toNat_zero, Nat.zero_mul, Nat.zero_add]

theorem State.readReg_kcfg0_toNat (s : State) : (s.readReg .kcfg0).toNat = s.kcfgSkl.toNat := by
  simp only [State.readReg, toNat_append_eq_add, BitVec.toNat_zero, Nat.zero_mul, Nat.zero_add]

theorem State.readReg_kcfg1_toNat (s : State) :
    (s.readReg .kcfg1).toNat = s.kcfgEkl.toNat + 2 ^ 8 * s.kcfgEbs.toNat + 2 ^ 16 * s.kcfgSgl.toNat := by
  simp only [State.readReg, toNat_append_eq_add, BitVec.toNat_zero]
  omega

/-- CAPS as a number (10_state.md R34): with legal parameters its three fields do not overlap. -/
theorem capsWord_toNat {p : Params} (h : p.legal = true) :
    (capsWord p).toNat = p.bufAddrBits + p.nks * 2 ^ 8 + p.maxSkl * 2 ^ 16 := by
  obtain ⟨⟨⟨⟨⟨-, hb⟩, -⟩, hn⟩, -⟩, hm⟩ : ((((8 ≤ p.bufAddrBits ∧ p.bufAddrBits ≤ 16) ∧ 1 ≤ p.nks) ∧ p.nks ≤ 16)
      ∧ 128 ≤ p.maxSkl) ∧ p.maxSkl ≤ 960 := by simpa [Params.legal] using h
  have low : p.nks <<< 8 ||| p.bufAddrBits = p.nks <<< 8 + p.bufAddrBits :=
    (Nat.shiftLeft_add_eq_or_of_lt (by omega) _).symm
  have all : p.maxSkl <<< 16 ||| (p.nks <<< 8 + p.bufAddrBits) = p.maxSkl <<< 16 + (p.nks <<< 8 + p.bufAddrBits) :=
    (Nat.shiftLeft_add_eq_or_of_lt (by rw [Nat.shiftLeft_eq]; omega) _).symm
  have hbits : ∀ {x k : Nat}, x * 2 ^ k < 2 ^ 32 → x < 2 ^ 32 →
      (BitVec.ofNat 32 x <<< k).toNat = x <<< k := fun hk hx => by
    rw [BitVec.toNat_shiftLeft, BitVec.toNat_ofNat, Nat.mod_eq_of_lt hx, Nat.shiftLeft_eq, Nat.mod_eq_of_lt hk]
  rw [capsWord, BitVec.toNat_or, BitVec.toNat_or, hbits (by omega) (by omega), hbits (by omega) (by omega),
    BitVec.toNat_ofNat, Nat.mod_eq_of_lt (by omega), Nat.or_comm p.bufAddrBits, low, Nat.or_comm, all,
    Nat.shiftLeft_eq, Nat.shiftLeft_eq]
  omega

/-- The low bits of a word, kept by a mask. -/
theorem and_mask_toNat (v : Word) {k : Nat} (hk : k < 32) :
    (v &&& BitVec.ofNat 32 (2 ^ k - 1)).toNat = v.toNat % 2 ^ k := by
  have : 2 ^ k < 2 ^ 32 := Nat.pow_lt_pow_right (by decide) hk
  rw [BitVec.toNat_and, BitVec.toNat_ofNat, Nat.mod_eq_of_lt (by omega), Nat.and_two_pow_sub_one_eq_mod]

/-- KCFG0 reads back the low 16 bits that were written (10_state.md R40). -/
theorem kcfg0_readback (v : Word) : 0#16 ++ v.extractLsb' 0 16 = v &&& 0x0000FFFF#32 := by
  refine BitVec.eq_of_toNat_eq ((?_ : _ = v.toNat % 2 ^ 16).trans (and_mask_toNat v (k := 16) (by decide)).symm)
  simp only [toNat_append_eq_add, BitVec.extractLsb'_toNat, BitVec.toNat_zero, Nat.shiftRight_eq_div_pow]
  omega

/-- KCFG1 reads back the low 24 bits that were written, field by field (10_state.md R40). -/
theorem kcfg1_readback (v : Word) :
    0#8 ++ v.extractLsb' 16 8 ++ v.extractLsb' 8 8 ++ v.extractLsb' 0 8 = v &&& 0x00FFFFFF#32 := by
  refine BitVec.eq_of_toNat_eq ((?_ : _ = v.toNat % 2 ^ 24).trans (and_mask_toNat v (k := 24) (by decide)).symm)
  simp only [toNat_append_eq_add, BitVec.extractLsb'_toNat, BitVec.toNat_zero, Nat.shiftRight_eq_div_pow]
  omega

/-- CTRL reads back the one bit that was written (10_state.md R35). -/
theorem ctrl_readback (v : Word) : 0#31 ++ bit (v.getLsbD 0) = v &&& 1#32 := by
  refine BitVec.eq_of_toNat_eq ((?_ : _ = v.toNat % 2 ^ 1).trans (and_mask_toNat v (k := 1) (by decide)).symm)
  simp only [toNat_append_eq_add, bit_toNat, BitVec.toNat_zero, BitVec.getLsbD, Nat.testBit_zero]
  rcases Nat.mod_two_eq_zero_or_one v.toNat with h | h <;> simp [h]

/-! ### Writes while idle and while busy -/

@[simp] theorem State.unlessBusy_idle {s : State} (h : s.busy = false) (t : State) : s.unlessBusy t = t := by
  simp [State.unlessBusy, h]

@[simp] theorem State.unlessBusy_busy {s : State} (h : s.busy = true) (t : State) :
    s.unlessBusy t = s.dropWrite := by
  simp [State.unlessBusy, h]

/-- A host write to `BUF` of a busy engine is dropped (10_state.md R38). -/
theorem State.hostWriteBuf_busy {s : State} (h : s.busy = true) (a : Nat) (v : Bytes) :
    s.hostWriteBuf a v = s.dropWrite := s.unlessBusy_busy h _

/-- An acknowledgement as R37 words it: a one clears, a zero leaves. -/
theorem State.ackStatus_eq (s : State) (v : Word) : s.ackStatus v = { s with
    done := if v.getLsbD 1 then false else s.done, err := if v.getLsbD 2 then false else s.err
    errCode := if v.getLsbD 2 then .noError else s.errCode, werr := if v.getLsbD 4 then false else s.werr } := by
  unfold State.ackStatus
  congr 1 <;> split_ifs <;> simp_all

end Sys2Proof.Machine
end

section
/-! SUPPORT. The lengths of what the units compute, and what each command's rule answers: when it ends without error
and with which effect, and that no error it reports is NONE. -/

namespace Sys2Proof.Machine

/-! ### Lengths -/

/-- The PRF loop reaches the length requested: each turn appends at least one byte (41_prf.md R200, log 15). -/
theorem prfLoop_length (h : HashVariant) (secret seed : Bytes) {L : Nat} (n : Nat) (a out : Bytes)
    (hn : L ≤ out.length + n) : L ≤ (prfLoop h secret seed L n a out).length := by
  induction n generalizing a out with
  | zero => exact hn
  | succ n ih =>
    have := hlen_pos h
    simp only [prfLoop]
    split_ifs with hL
    · exact hL
    · exact ih _ _ (by simp only [List.length_append, hmac_length]; omega)

/-- The PRF gives as many bytes as were requested (41_prf.md R200). -/
@[simp] theorem prf_length (secret seed : Bytes) (L : Nat) (h : HashVariant) : (prf secret seed L h).length = L := by
  have := prfLoop_length h secret seed L seed [] (L := L) (by simp)
  simpa [prf] using this

theorem aesEnc_length_le (key blk : Bytes) : (aesEnc key blk).length ≤ 16 := by
  simp [aesEnc, addRoundKey]

theorem aesDec_length_le (key blk : Bytes) : (aesDec key blk).length ≤ 16 := by
  simp [aesDec, addRoundKey]

theorem cbcEncBlocks_length_le (key prev : Bytes) (ps : List Bytes) :
    (cbcEncBlocks key prev ps).flatten.length ≤ 16 * ps.length := by
  induction ps generalizing prev with
  | nil => simp [cbcEncBlocks]
  | cons p ps ih =>
    have := aesEnc_length_le key (xorBytes p prev)
    have := ih (aesEnc key (xorBytes p prev))
    simp only [cbcEncBlocks, List.flatten_cons, List.length_append, List.length_cons]
    omega

theorem cbcDecBlocks_length_le (key prev : Bytes) (cs : List Bytes) :
    (cbcDecBlocks key prev cs).flatten.length ≤ 16 * cs.length := by
  induction cs generalizing prev with
  | nil => simp [cbcDecBlocks]
  | cons c cs ih =>
    have := aesDec_length_le key c
    have := ih c
    simp only [cbcDecBlocks, List.flatten_cons, List.length_append, List.length_cons, xorBytes_length]
    omega

theorem cipherBlocks_bytes_le (b : Bytes) : 16 * (cipherBlocks b).length ≤ b.length := by
  rw [cipherBlocks, pieces_length]
  exact Nat.mul_div_le b.length 16

/-- Whatever the key, CBC encryption gives no more bytes than it takes. -/
theorem cbcEnc_length_le (key iv p : Bytes) : (cbcEnc key iv p).length ≤ p.length :=
  (cbcEncBlocks_length_le key iv _).trans (cipherBlocks_bytes_le p)

/-- Whatever the key, CBC decryption gives no more bytes than it takes. -/
theorem cbcDec_length_le (key iv c : Bytes) : (cbcDec key iv c).length ≤ c.length :=
  (cbcDecBlocks_length_le key iv _).trans (cipherBlocks_bytes_le c)

/-! ### Exec by the rule of the command -/

/-- The rule of each command. -/
def commandRule : Instr → State → Except ErrCode Effect
  | .prfDerive hash => prfDeriveRule hash
  | .keyDerive slot hash alg => keyDeriveRule slot hash alg
  | .keyClear slot => keyClearRule slot
  | .padFooter bs => padFooterRule bs
  | .padStrip => padStripRule
  | .cbcEncrypt slot => cbcEncryptRule slot
  | .cbcDecrypt slot => cbcDecryptRule slot
  | .hmacSign slot => hmacSignRule slot
  | .hmacVerify slot => hmacVerifyRule slot
  | .protectChunk slot => protectChunkRule slot
  | .unprotectChunk slot => unprotectChunkRule slot

/-- Every command is the completion of its rule (60_exceptions.md R336). -/
theorem exec_eq_commandRule (i : Instr) (s : State) : exec i s = .next (s.complete (commandRule i s)) := by
  cases i <;> rfl

/-! ### What each rule answers when it ends without error -/

section
variable {s : State} {e : Effect}

theorem prfDeriveRule_eq_ok {hash : Nat} : prfDeriveRule hash s = .ok e ↔
    ∃ h, hash = (hashCode h).toNat ∧ s.outLen.toNat ≠ 0 ∧ s.sourceInside ∧ s.seedInside
      ∧ s.outputInside s.outLen.toNat
      ∧ e = { dst := s.dstAddr.toNat, out := prf s.sourceBytes s.seedBytes s.outLen.toNat h
              resultLen := s.outLen.toNat } := by
  simp [prfDeriveRule, bind_eq_ok, selectHash_eq_ok, raiseIf_eq_ok, State.sourceInput_eq_ok, State.seedInput_eq_ok,
    State.checkOut_eq_ok, and_assoc, State.sourceInside, State.seedInside, State.outputInside, eq_comm (a := e)]

theorem keyDeriveRule_eq_ok {slot hash alg : Nat} : keyDeriveRule slot hash alg s = .ok e ↔
    ∃ h, hash = (hashCode h).toNat ∧ ∃ a, alg = (algCode a).toNat ∧ slot < s.params.nks
      ∧ (s.slot slot).valid = false ∧ s.lengthsConsistent a h = true ∧ s.sourceInside ∧ s.seedInside
      ∧ e = { slotWrite := some (slot, s.sliceKeys a h (prf s.sourceBytes s.seedBytes s.streamLength h))
              resultLen := s.streamLength } := by
  simp [keyDeriveRule, bind_eq_ok, selectHash_eq_ok, selectAlg_eq_ok, State.selectSlot_eq_ok, raiseIf_eq_ok,
    State.sourceInput_eq_ok, State.seedInput_eq_ok, and_assoc, State.sourceInside, State.seedInside,
    eq_comm (a := e)]

theorem keyClearRule_eq_ok {slot : Nat} : keyClearRule slot s = .ok e ↔
    slot < s.params.nks ∧ e = { slotWrite := some (slot, KeySlot.empty), resultLen := 0 } := by
  simp [keyClearRule, bind_eq_ok, State.selectSlot_eq_ok, eq_comm (a := e)]

theorem padFooterRule_eq_ok {bs : Nat} : padFooterRule bs s = .ok e ↔
    bs ≠ 0 ∧ s.outputInside (paddingSize s.srcLen.toNat bs + 1)
      ∧ e = { dst := s.dstAddr.toNat, out := computeFooter s.srcLen.toNat bs
              resultLen := paddingSize s.srcLen.toNat bs + 1 } := by
  simp [padFooterRule, bind_eq_ok, raiseIf_eq_ok, State.checkOut_eq_ok, State.outputInside, eq_comm (a := e)]

theorem padStripRule_eq_ok : padStripRule s = .ok e ↔
    s.sourceInside ∧ ∃ b, stripFooter s.sourceBytes = .ok b ∧ e = { resultLen := b.length } := by
  simp [padStripRule, bind_eq_ok, State.sourceInput_eq_ok, State.sourceInside, and_assoc, eq_comm (a := e)]

theorem cbcEncryptRule_eq_ok {slot : Nat} : cbcEncryptRule slot s = .ok e ↔
    s.keyed slot ∧ s.sourceInside ∧ s.srcLen.toNat % (s.slot slot).ebs.toNat = 0
      ∧ s.outputInside s.srcLen.toNat
      ∧ e = { dst := s.dstAddr.toNat, out := cbcEnc (s.slot slot).ek (s.slot slot).iv s.sourceBytes
              resultLen := s.srcLen.toNat } := by
  simp [cbcEncryptRule, bind_eq_ok, State.keyedSlot_eq_ok, State.sourceInput_eq_ok, raiseIf_eq_ok,
    State.checkOut_eq_ok, State.keyed, State.sourceInside, State.outputInside, and_assoc, eq_comm (a := e)]

theorem cbcDecryptRule_eq_ok {slot : Nat} : cbcDecryptRule slot s = .ok e ↔
    s.keyed slot ∧ s.sourceInside ∧ s.srcLen.toNat % (s.slot slot).ebs.toNat = 0
      ∧ s.outputInside s.srcLen.toNat
      ∧ e = { dst := s.dstAddr.toNat, out := cbcDec (s.slot slot).ek (s.slot slot).iv s.sourceBytes
              resultLen := s.srcLen.toNat } := by
  simp [cbcDecryptRule, bind_eq_ok, State.keyedSlot_eq_ok, State.sourceInput_eq_ok, raiseIf_eq_ok,
    State.checkOut_eq_ok, State.keyed, State.sourceInside, State.outputInside, and_assoc, eq_comm (a := e)]

theorem hmacSignRule_eq_ok {slot : Nat} : hmacSignRule slot s = .ok e ↔
    s.keyed slot ∧ s.sourceInside ∧ s.outputInside (s.slot slot).sgl.toNat
      ∧ e = { dst := s.dstAddr.toNat, out := (s.slot slot).sign s.sourceBytes
              resultLen := (s.slot slot).sgl.toNat } := by
  simp [hmacSignRule, bind_eq_ok, State.keyedSlot_eq_ok, State.sourceInput_eq_ok, State.checkOut_eq_ok,
    State.keyed, State.sourceInside, State.outputInside, and_assoc, eq_comm (a := e)]

theorem hmacVerifyRule_eq_ok {slot : Nat} : hmacVerifyRule slot s = .ok e ↔
    s.keyed slot ∧ s.sourceInside ∧ (s.slot slot).sgl.toNat ≤ s.srcLen.toNat
      ∧ e = { resultLen := s.srcLen.toNat - (s.slot slot).sgl.toNat
              auth := (s.slot slot).verifies s.sourceBytes } := by
  simp [hmacVerifyRule, bind_eq_ok, State.keyedSlot_eq_ok, State.sourceInput_eq_ok, raiseIf_eq_ok,
    State.keyed, State.sourceInside, and_assoc, eq_comm (a := e)]

theorem protectChunkRule_eq_ok {slot : Nat} : protectChunkRule slot s = .ok e ↔
    s.keyed slot ∧ s.sourceInside ∧ s.outputInside ((s.slot slot).padChunk s.sourceBytes).length
      ∧ e = { dst := s.dstAddr.toNat
              out := cbcEnc (s.slot slot).ek (s.slot slot).iv ((s.slot slot).padChunk s.sourceBytes)
              resultLen := ((s.slot slot).padChunk s.sourceBytes).length } := by
  simp [protectChunkRule, bind_eq_ok, State.keyedSlot_eq_ok, State.sourceInput_eq_ok, State.checkOut_eq_ok,
    State.keyed, State.sourceInside, State.outputInside, and_assoc, eq_comm (a := e)]

theorem unprotectChunkRule_eq_ok {slot : Nat} : unprotectChunkRule slot s = .ok e ↔
    s.keyed slot ∧ s.sourceInside ∧ s.srcLen.toNat % (s.slot slot).ebs.toNat = 0
      ∧ ∃ b, stripFooter (cbcDec (s.slot slot).ek (s.slot slot).iv s.sourceBytes) = .ok b
        ∧ (s.slot slot).sgl.toNat ≤ b.length
        ∧ s.outputInside (signedMessage (s.slot slot).sgl.toNat b).length
        ∧ e = { dst := s.dstAddr.toNat, out := signedMessage (s.slot slot).sgl.toNat b
                resultLen := (signedMessage (s.slot slot).sgl.toNat b).length
                auth := (s.slot slot).verifies b } := by
  simp [unprotectChunkRule, bind_eq_ok, State.keyedSlot_eq_ok, State.sourceInput_eq_ok, raiseIf_eq_ok,
    State.checkOut_eq_ok, State.keyed, State.sourceInside, State.outputInside, and_assoc, eq_comm (a := e)]

end

/-! ### The errors a rule can report -/

/-- Stripping a footer fails with PROTOCOL only (43_padding.md R255). -/
theorem stripFooter_error {b : Bytes} {c : ErrCode} (h : stripFooter b = .error c) : c = .protocol := by
  simp only [stripFooter, bind_eq_error, raiseIf_eq_error, pure_eq_ok, reduceCtorEq, and_false, exists_false,
    or_false] at h
  rcases h with ⟨-, rfl⟩ | ⟨_, -, -, rfl⟩ <;> rfl

/-- No rule reports the error NONE: each check of a command names its error (60_exceptions.md R330). -/
theorem commandRule_ne_noError (i : Instr) (s : State) : commandRule i s ≠ .error .noError := by
  have strip : ∀ b, stripFooter b ≠ .error .noError := fun b h => nomatch stripFooter_error h
  cases i <;>
    simp [commandRule, prfDeriveRule, keyDeriveRule, keyClearRule, padFooterRule, padStripRule, cbcEncryptRule,
      cbcDecryptRule, hmacSignRule, hmacVerifyRule, protectChunkRule, unprotectChunkRule, bind_eq_error,
      raiseIf_eq_error, selectHash_eq_error, selectAlg_eq_error, State.selectSlot_eq_error, State.keyedSlot_eq_error,
      State.sourceInput_eq_error, State.seedInput_eq_error, State.checkOut_eq_error, strip]

end Sys2Proof.Machine
end

section
/-! SUPPORT. The invariant with named parts, kept by every operation of the machine (10_state.md R36, R43, R46, R50). -/

namespace Sys2Proof.Machine

/-- The invariant `State.inv`, its parts by name. -/
structure State.Inv (s : State) : Prop where
  legal : s.params.legal = true
  slotCount : s.slots.length = s.params.nks
  slotsInv : ∀ ks ∈ s.slots, ks.inv s.params.maxSkl = true
  bufWf : Memory.wf s.buf = true
  bufWithin : Memory.within s.params.bufSize s.buf = true
  busyClear : s.busy = true → s.done = false ∧ s.err = false ∧ s.auth = false ∧ s.resultLen = 0
  errIff : s.err = false ↔ s.errCode = .noError
  errAlone : s.err = true → s.auth = false ∧ s.resultLen = 0

theorem State.inv_iff {s : State} : s.inv = true ↔ s.Inv := by
  have guarded : ∀ b c : Bool, (!b || c) = true ↔ (b = true → c = true) := by decide
  simp only [State.inv, guarded, Bool.and_eq_true, Bool.not_eq_true', decide_eq_true_eq, List.all_eq_true, and_assoc]
  exact ⟨fun ⟨h1, h2, h3, h4, h5, h6, h7, h8⟩ => ⟨h1, h2, h3, h4, h5, h6, h7, h8⟩,
    fun ⟨h1, h2, h3, h4, h5, h6, h7, h8⟩ => ⟨h1, h2, h3, h4, h5, h6, h7, h8⟩⟩

/-! ### Slots -/

@[simp] theorem KeySlot.empty_inv (n : Nat) : KeySlot.empty.inv n = true := rfl

theorem KeySlot.inv_iff_of_valid {n : Nat} {ks : KeySlot} (hv : ks.valid = true) : ks.inv n = true ↔
    ks.sk.length = ks.skl.toNat ∧ ks.ek.length = ks.ekl.toNat ∧ ks.iv.length = ks.ebs.toNat ∧ ks.ebs.toNat = 16
      ∧ ks.ekl.toNat = klen ks.alg ∧ ks.sgl.toNat = hlen ks.hash ∧ ks.skl.toNat ≤ n := by
  simp [KeySlot.inv, hv, and_assoc]

/-- The signature of a keyed command's slot is SGL bytes long (10_state.md R46). -/
theorem State.Inv.sign_length {s : State} (h : s.Inv) {k : Nat} (hk : s.keyed k) (m : Bytes) :
    ((s.slot k).sign m).length = (s.slot k).sgl.toNat := by
  obtain ⟨hlt, hv⟩ := hk
  have hs := h.slotsInv _ (s.slot_mem (h.slotCount ▸ hlt))
  obtain ⟨-, -, -, -, -, hsgl, -⟩ := (KeySlot.inv_iff_of_valid hv).1 hs
  rw [KeySlot.sign, hmac_length, hsgl]

/-- The key set KEY_DERIVE slices meets the slot invariant (42_key_scheduler.md R221, R222). -/
theorem State.sliceKeys_inv {s : State} {a : CipherAlg} {h : HashVariant} {stream : Bytes}
    (hc : s.lengthsConsistent a h = true) (hl : stream.length = s.streamLength) :
    (s.sliceKeys a h stream).inv s.params.maxSkl = true := by
  obtain ⟨⟨⟨hebs, hekl⟩, hsgl⟩, hskl⟩ : ((s.kcfgEbs.toNat = 16 ∧ s.kcfgEkl.toNat = klen a)
      ∧ s.kcfgSgl.toNat = hlen h) ∧ s.kcfgSkl.toNat ≤ s.params.maxSkl := by simpa [State.lengthsConsistent] using hc
  rw [State.streamLength] at hl
  refine (KeySlot.inv_iff_of_valid rfl).2 ⟨?_, ?_, ?_, hebs, hekl, hsgl, hskl⟩ <;>
    simp only [State.sliceKeys, slice_length, hl] <;> omega

/-! ### Reset and host writes -/

namespace State.Inv
variable {s : State}

/-- The reset state meets the invariant (10_state.md R60). -/
theorem resetWith {p : Params} (h : p.legal = true) : (State.resetWith p).Inv where
  legal := h
  slotCount := List.length_replicate
  slotsInv ks hks := by rw [List.eq_of_mem_replicate hks, KeySlot.empty_inv]
  bufWf := rfl
  bufWithin := rfl
  busyClear := nofun
  errIff := by simp
  errAlone := nofun

theorem assertReset (h : s.Inv) : s.assertReset.Inv := { resetWith h.legal with }

theorem nextTurn (h : s.Inv) : s.nextTurn.2.Inv := by
  rw [s.nextTurn_snd]
  exact { h with }

theorem dropWrite (h : s.Inv) : s.dropWrite.Inv := { h with }

theorem unlessBusy (h : s.Inv) {t : State} (ht : t.Inv) : (s.unlessBusy t).Inv := by
  rcases s.unlessBusy_cases t with ⟨-, e⟩ | ⟨-, e⟩ <;> rw [e]
  exacts [h.dropWrite, ht]

theorem accept (h : s.Inv) (v : Word) : (s.accept v).Inv :=
  { h with
    busyClear := fun _ => ⟨rfl, rfl, rfl, rfl⟩
    errIff := by simp
    errAlone := nofun }

theorem ackStatus (h : s.Inv) (v : Word) : (s.ackStatus v).Inv :=
  { h with
    busyClear := fun hb => by
      obtain ⟨hd, he, hrest⟩ := h.busyClear hb
      exact ⟨by simp [hd], by simp [he], hrest⟩
    errIff := by
      rw [State.ackStatus_err, State.ackStatus_errCode]
      cases v.getLsbD 2
      · simpa using h.errIff
      · simp
    errAlone := fun he => h.errAlone (by simp only [State.ackStatus_err, Bool.and_eq_true] at he; exact he.1) }

/-- A register write keeps the invariant, register by register (10_state.md R33 to R42). -/
theorem writeReg (h : s.Inv) (v : Word) (r : Reg) : (s.writeReg v r).Inv := by
  cases r with
  | id | caps | resultLen => exact h
  | ctrl => exact { h with }
  | status => exact h.ackStatus v
  | cmd => exact h.unlessBusy (h.accept v)
  | srcAddr | srcLen | seedAddr | seedLen | dstAddr | outLen | kcfg0 | kcfg1 => exact h.unlessBusy { h with }

theorem hostWriteBuf (h : s.Inv) {a : Nat} {v : Bytes} (hv : a + v.length ≤ s.params.bufSize) :
    (s.hostWriteBuf a v).Inv :=
  h.unlessBusy { h with
    bufWf := Memory.writeBytes_wf h.bufWf a v
    bufWithin := Memory.writeBytes_within h.bufWithin hv }

/-- An aligned word that begins inside `BUF` lies inside it, as BUF_SIZE is a multiple of 4 (00_scope.md R11). -/
theorem word_inside (h : s.Inv) {a : Nat} (ha : a < s.params.bufSize) (h4 : a % 4 = 0) :
    a + 4 ≤ s.params.bufSize := by
  have hlegal : 8 ≤ s.params.bufAddrBits := by
    have := h.legal
    simp only [Params.legal, Bool.and_eq_true, decide_eq_true_eq, and_assoc] at this
    exact this.1
  have : 2 ^ 2 ∣ s.params.bufSize := Nat.pow_dvd_pow 2 (by omega)
  omega

theorem store32 (h : s.Inv) {t : State} {off : Nat} {v : Word} (e : s.store32 off v = .ok t) : t.Inv := by
  rcases State.store32_eq_ok e with rfl | ⟨r, -, -, rfl⟩ | ⟨a, hoff, h4, ha, rfl⟩
  · exact h
  · exact h.writeReg v r
  · exact h.hostWriteBuf (h.word_inside ha (by omega))

theorem store8 (h : s.Inv) {t : State} {off : Nat} {v : Byte} (e : s.store8 off v = .ok t) : t.Inv := by
  rcases State.store8_eq_ok e with rfl | ⟨a, -, ha, rfl⟩
  · exact h
  · exact h.hostWriteBuf ha

theorem perform (h : s.Inv) {t : State} {op : HostOp} {rest : List HostOp} (e : s.perform op rest = .next t) :
    t.Inv := by
  have hu : ({ s with hostOps := rest } : State).Inv := { h with }
  rcases State.perform_eq_next e with ⟨_, _, -, e⟩ | ⟨_, _, -, e⟩ | ⟨-, v, rfl⟩ | ⟨-, ⟨-, rfl⟩ | ⟨-, rfl⟩⟩
  · exact hu.store32 e
  · exact hu.store8 e
  · exact { h with }
  · exact hu
  · exact h

end State.Inv

/-! ### Completion -/

/-- An effect the state can take: its bytes lie inside `BUF` (20_memory.md R91) and the slot it writes meets the slot
invariant (10_state.md R46). -/
structure State.Admits (s : State) (e : Effect) : Prop where
  inside : e.dst + e.out.length ≤ s.params.bufSize
  slotInv : ∀ w, e.slotWrite = some w → w.2.inv s.params.maxSkl = true

/-- An effect without a slot write whose bytes lie where the rule has checked the output. -/
theorem State.Admits.ofOutput {s : State} {out : Bytes} {n len : Nat} {auth : Bool} (hn : s.outputInside n)
    (hlen : out.length ≤ n) : s.Admits { dst := s.dstAddr.toNat, out := out, resultLen := len, auth := auth } where
  inside := (Nat.add_le_add_left hlen _).trans hn
  slotInv := nofun

/-- An effect that writes no byte. -/
theorem State.Admits.ofNoOutput {s : State} {w : Option (Nat × KeySlot)} {len : Nat} {auth : Bool}
    (hw : ∀ x, w = some x → x.2.inv s.params.maxSkl = true) :
    s.Admits { slotWrite := w, resultLen := len, auth := auth } where
  inside := Nat.zero_le _
  slotInv := hw

/-- The effect of every command stays inside `BUF` and keeps the slot invariant. -/
theorem State.Inv.commandRule_admits {s : State} (h : s.Inv) {i : Instr} {e : Effect}
    (he : commandRule i s = .ok e) : s.Admits e := by
  cases i with
  | prfDerive hash =>
    obtain ⟨_, -, -, -, -, hout, rfl⟩ := prfDeriveRule_eq_ok.1 he
    exact .ofOutput hout (prf_length ..).le
  | keyDerive slot hash alg =>
    obtain ⟨_, -, _, -, -, -, hcons, -, -, rfl⟩ := keyDeriveRule_eq_ok.1 he
    refine .ofNoOutput fun x hx => ?_
    cases hx
    exact State.sliceKeys_inv hcons (prf_length ..)
  | keyClear slot =>
    obtain ⟨-, rfl⟩ := keyClearRule_eq_ok.1 he
    refine .ofNoOutput fun x hx => ?_
    cases hx
    exact KeySlot.empty_inv _
  | padFooter bs =>
    obtain ⟨-, hout, rfl⟩ := padFooterRule_eq_ok.1 he
    exact .ofOutput hout (computeFooter_length ..).le
  | padStrip =>
    obtain ⟨-, _, -, rfl⟩ := padStripRule_eq_ok.1 he
    exact .ofNoOutput nofun
  | cbcEncrypt slot =>
    obtain ⟨-, -, -, hout, rfl⟩ := cbcEncryptRule_eq_ok.1 he
    exact .ofOutput hout ((cbcEnc_length_le ..).trans s.sourceBytes_length.le)
  | cbcDecrypt slot =>
    obtain ⟨-, -, -, hout, rfl⟩ := cbcDecryptRule_eq_ok.1 he
    exact .ofOutput hout ((cbcDec_length_le ..).trans s.sourceBytes_length.le)
  | hmacSign slot =>
    obtain ⟨hk, -, hout, rfl⟩ := hmacSignRule_eq_ok.1 he
    exact .ofOutput hout (h.sign_length hk _).le
  | hmacVerify slot =>
    obtain ⟨-, -, -, rfl⟩ := hmacVerifyRule_eq_ok.1 he
    exact .ofNoOutput nofun
  | protectChunk slot =>
    obtain ⟨-, -, hout, rfl⟩ := protectChunkRule_eq_ok.1 he
    exact .ofOutput hout (cbcEnc_length_le ..)
  | unprotectChunk slot =>
    obtain ⟨-, -, -, _, -, -, hout, rfl⟩ := unprotectChunkRule_eq_ok.1 he
    exact .ofOutput hout le_rfl

theorem State.Inv.completeError {s : State} (h : s.Inv) {c : ErrCode} (hc : c ≠ .noError) :
    (s.completeError c).Inv :=
  { h with
    busyClear := nofun
    errIff := by simpa using hc
    errAlone := fun _ => ⟨rfl, rfl⟩ }

theorem State.Inv.completeOk {s : State} (h : s.Inv) {e : Effect} (he : s.Admits e) : (s.completeOk e).Inv where
  legal := h.legal
  slotCount := (writeSlot_length ..).trans h.slotCount
  slotsInv ks hks := by
    rw [State.completeOk_slots] at hks
    cases hw : e.slotWrite with
    | none => rw [hw] at hks; exact h.slotsInv ks hks
    | some w =>
      rw [hw] at hks
      rcases List.mem_or_eq_of_mem_set hks with hold | rfl
      exacts [h.slotsInv ks hold, he.slotInv w hw]
  bufWf := Memory.writeBytes_wf h.bufWf _ _
  bufWithin := Memory.writeBytes_within h.bufWithin he.inside
  busyClear := nofun
  errIff := by simp
  errAlone := nofun

theorem State.Inv.exec {s t : State} (h : s.Inv) {i : Instr} (e : exec i s = .next t) : t.Inv := by
  rw [exec_eq_commandRule] at e
  cases e
  cases hr : commandRule i s with
  | error c => exact h.completeError fun hc => commandRule_ne_noError i s (hc ▸ hr)
  | ok e => exact h.completeOk (h.commandRule_admits hr)

/-- Every step keeps the invariant, turn by turn. -/
theorem State.Inv.step {s t : State} (h : s.Inv) (e : step s = .next t) : t.Inv := by
  have hu := h.nextTurn
  rcases step_eq_next e with ⟨-, rfl⟩ | ⟨-, -, i, -, e⟩ | ⟨-, -, -, rfl⟩ | ⟨-, -, rfl⟩ | ⟨-, -, rfl⟩
    | ⟨-, op, rest, -, e⟩
  · exact hu.assertReset
  · exact hu.exec e
  · exact hu.completeError nofun
  · exact hu
  · exact hu
  · exact hu.perform e

/-- Settles O13: every turn keeps the named parts of the invariant. -/
theorem stepKeepsTheInvariant : Obligations.StepKeepsTheInvariant := fun _ _ hs h =>
  State.inv_iff.2 ((State.inv_iff.1 hs).step h)

/-- Settles O11. -/
theorem resetMeetsTheInvariant : Obligations.ResetMeetsTheInvariant :=
  ⟨State.inv_iff.2 (.resetWith (by decide)), fun _ hp => State.inv_iff.2 (.resetWith hp)⟩

end Sys2Proof.Machine
end

section
/-! SUPPORT. What a step does to the slot file and what a busy host turn leaves (10_state.md R38, R46, R47). -/

namespace Sys2Proof.Machine

/-! ### The slot file -/

/-- A slot after a write to the slot file: the written one where it exists, every other as before. -/
theorem State.slot_of_set {s t : State} {k : Nat} {ks : KeySlot} (h : t.slots = s.slots.set k ks) (j : Nat) :
    t.slot j = if k = j ∧ j < s.slots.length then ks else s.slot j := by
  simp only [State.slot, h, List.getD_eq_getElem?_getD, List.getElem?_set]
  split_ifs with hkj hj hj <;> simp_all

theorem State.slot_congr {s t : State} (h : t.slots = s.slots) (k : Nat) : t.slot k = s.slot k := by
  rw [State.slot, h, State.slot]

/-- After reset every slot number reads as the empty slot (10_state.md R60). -/
theorem State.slot_of_replicate {t : State} {n : Nat} (h : t.slots = List.replicate n KeySlot.empty) (k : Nat) :
    t.slot k = KeySlot.empty := by
  rw [State.slot, h, List.getD_eq_getElem?_getD, List.getElem?_replicate]
  split_ifs <;> rfl

theorem State.unlessBusy_slots {s t : State} (h : t.slots = s.slots) : (s.unlessBusy t).slots = s.slots := by
  rcases s.unlessBusy_cases t with ⟨-, e⟩ | ⟨-, e⟩ <;> rw [e]
  exacts [rfl, h]

/-- No register write changes a slot (10_state.md R46). -/
theorem State.writeReg_slots (s : State) (v : Word) (r : Reg) : (s.writeReg v r).slots = s.slots := by
  cases r with
  | id | caps | ctrl | status | resultLen => rfl
  | cmd | srcAddr | srcLen | seedAddr | seedLen | dstAddr | outLen | kcfg0 | kcfg1 => exact State.unlessBusy_slots rfl

theorem State.store32_slots {s t : State} {off : Nat} {v : Word} (h : s.store32 off v = .ok t) :
    t.slots = s.slots := by
  rcases State.store32_eq_ok h with rfl | ⟨r, -, -, rfl⟩ | ⟨a, -, -, -, rfl⟩
  · rfl
  · exact s.writeReg_slots v r
  · exact State.unlessBusy_slots rfl

theorem State.store8_slots {s t : State} {off : Nat} {v : Byte} (h : s.store8 off v = .ok t) : t.slots = s.slots := by
  rcases State.store8_eq_ok h with rfl | ⟨a, -, -, rfl⟩
  · rfl
  · exact State.unlessBusy_slots rfl

/-- No host operation changes a slot (10_state.md R46). -/
theorem State.perform_slots {s t : State} {op : HostOp} {rest : List HostOp} (h : s.perform op rest = .next t) :
    t.slots = s.slots := by
  rcases State.perform_eq_next h with ⟨_, _, -, e⟩ | ⟨_, _, -, e⟩ | ⟨-, v, rfl⟩ | ⟨-, ⟨-, rfl⟩ | ⟨-, rfl⟩⟩
  · exact (State.store32_slots e :)
  · exact (State.store8_slots e :)
  all_goals rfl

/-- The slot a command writes: none, an invalid one by KEY_DERIVE, or an emptied one by KEY_CLEAR. -/
theorem commandRule_slotWrite {i : Instr} {s : State} {e : Effect} (he : commandRule i s = .ok e) :
    e.slotWrite = none
      ∨ (∃ k h a ks, i = .keyDerive k h a ∧ (s.slot k).valid = false ∧ e.slotWrite = some (k, ks))
      ∨ ∃ k, i = .keyClear k ∧ e.slotWrite = some (k, KeySlot.empty) := by
  cases i with
  | keyDerive slot hash alg =>
    obtain ⟨_, -, _, -, -, hv, -, -, -, rfl⟩ := keyDeriveRule_eq_ok.1 he
    exact .inr (.inl ⟨slot, hash, alg, _, rfl, hv, rfl⟩)
  | keyClear slot =>
    obtain ⟨-, rfl⟩ := keyClearRule_eq_ok.1 he
    exact .inr (.inr ⟨slot, rfl, rfl⟩)
  | prfDerive hash => obtain ⟨_, -, -, -, -, -, rfl⟩ := prfDeriveRule_eq_ok.1 he; exact .inl rfl
  | padFooter bs => obtain ⟨-, -, rfl⟩ := padFooterRule_eq_ok.1 he; exact .inl rfl
  | padStrip => obtain ⟨-, _, -, rfl⟩ := padStripRule_eq_ok.1 he; exact .inl rfl
  | cbcEncrypt slot => obtain ⟨-, -, -, -, rfl⟩ := cbcEncryptRule_eq_ok.1 he; exact .inl rfl
  | cbcDecrypt slot => obtain ⟨-, -, -, -, rfl⟩ := cbcDecryptRule_eq_ok.1 he; exact .inl rfl
  | hmacSign slot => obtain ⟨-, -, -, rfl⟩ := hmacSignRule_eq_ok.1 he; exact .inl rfl
  | hmacVerify slot => obtain ⟨-, -, -, rfl⟩ := hmacVerifyRule_eq_ok.1 he; exact .inl rfl
  | protectChunk slot => obtain ⟨-, -, -, rfl⟩ := protectChunkRule_eq_ok.1 he; exact .inl rfl
  | unprotectChunk slot => obtain ⟨-, -, -, _, -, -, -, rfl⟩ := unprotectChunkRule_eq_ok.1 he; exact .inl rfl

theorem exec_slots {i : Instr} {s t : State} (h : exec i s = .next t) :
    t.slots = s.slots
      ∨ (∃ k h a ks, i = .keyDerive k h a ∧ (s.slot k).valid = false ∧ t.slots = s.slots.set k ks)
      ∨ ∃ k, i = .keyClear k ∧ t.slots = s.slots.set k KeySlot.empty := by
  rw [exec_eq_commandRule] at h
  cases h
  cases hr : commandRule i s with
  | error c => exact .inl rfl
  | ok e =>
    rw [State.complete_ok, State.completeOk_slots]
    rcases commandRule_slotWrite hr with hw | ⟨k, h, a, ks, hi, hv, hw⟩ | ⟨k, hi, hw⟩ <;> rw [hw]
    · exact .inl rfl
    · exact .inr (.inl ⟨k, h, a, ks, hi, hv, rfl⟩)
    · exact .inr (.inr ⟨k, hi, rfl⟩)

/-- What a step does to the slot file: nothing, the reset of all slots, one KEY_DERIVE into an invalid slot, or one
KEY_CLEAR (10_state.md R46). -/
theorem step_slots {s t : State} (h : step s = .next t) :
    t.slots = s.slots
      ∨ (s.nextTurn.1 = .reset ∧ t.slots = List.replicate s.params.nks KeySlot.empty)
      ∨ (s.nextTurn.1 = .engine ∧ s.busy = true
        ∧ ((∃ k h a ks, decode s.cmd = .ok (.keyDerive k h a) ∧ (s.slot k).valid = false
              ∧ t.slots = s.slots.set k ks)
          ∨ ∃ k, decode s.cmd = .ok (.keyClear k) ∧ t.slots = s.slots.set k KeySlot.empty)) := by
  have hslots : s.nextTurn.2.slots = s.slots := by rw [s.nextTurn_snd]
  have hparams : s.nextTurn.2.params = s.params := by rw [s.nextTurn_snd]
  rcases step_eq_next h with ⟨hr, rfl⟩ | ⟨he, hb, i, hd, e⟩ | ⟨-, -, -, rfl⟩ | ⟨-, -, rfl⟩ | ⟨-, -, rfl⟩
    | ⟨-, op, rest, -, e⟩
  · exact .inr (.inl ⟨hr, by rw [State.assertReset_slots, hparams]⟩)
  · rcases exec_slots e with hs | ⟨k, h, a, ks, rfl, hv, hs⟩ | ⟨k, rfl, hs⟩
    · exact .inl (hs.trans hslots)
    · rw [State.slot_congr hslots] at hv
      exact .inr (.inr ⟨he, hb, .inl ⟨k, h, a, ks, hd, hv, hslots ▸ hs⟩⟩)
    · exact .inr (.inr ⟨he, hb, .inr ⟨k, hd, hslots ▸ hs⟩⟩)
  · exact .inl hslots
  · exact .inl hslots
  · exact .inl hslots
  · exact .inl ((State.perform_slots e).trans hslots)

/-- Settles O14: of the four things a step can do to the slot file, KEY_DERIVE hits an invalid slot only. -/
theorem validSlotIsImmutable : Obligations.ValidSlotIsImmutable := by
  intro s t h
  rcases step_slots h with hs | ⟨hr, hs⟩ | ⟨he, hb, ⟨k, hh, a, ks, hd, hv, hs⟩ | ⟨k, hd, hs⟩⟩
  · exact ⟨fun k _ => .inl (State.slot_congr hs k), fun hne => absurd hs hne⟩
  · exact ⟨fun k _ => .inr ⟨State.slot_of_replicate hs k, .inl hr⟩, fun _ => .inl hr⟩
  · refine ⟨fun j hj => .inl ?_, fun _ => .inr ⟨he, hb, .inl ⟨k, hh, a, hd⟩⟩⟩
    have hkj : k ≠ j := by
      rintro rfl
      simp [hv] at hj
    rw [State.slot_of_set hs, if_neg fun hc => hkj hc.1]
  · refine ⟨fun j _ => ?_, fun _ => .inr ⟨he, hb, .inr ⟨k, hd⟩⟩⟩
    rw [State.slot_of_set hs]
    split_ifs with hc
    · exact .inr ⟨rfl, .inr ⟨he, hb, hc.1 ▸ hd⟩⟩
    · exact .inl rfl

/-! ### A busy engine under host turns -/

/-- Everything a command reads and every result it has is the same: only CTRL, the flags the host may clear or set, and
what stands outside the block can differ. -/
def State.sameCommand (s t : State) : Prop :=
  t = { s with
    ctrlIE := t.ctrlIE, done := t.done, err := t.err, errCode := t.errCode, werr := t.werr
    hostOps := t.hostOps, reads := t.reads, turns := t.turns, draw := t.draw }

namespace State.sameCommand

theorem refl (s : State) : s.sameCommand s := rfl

theorem trans {s t u : State} (hst : s.sameCommand t) (htu : t.sameCommand u) : s.sameCommand u := by
  unfold State.sameCommand at *
  rw [hst] at htu
  exact htu

theorem ofNextTurn (s : State) : s.sameCommand s.nextTurn.2 := by
  rw [s.nextTurn_snd]
  rfl

/-- A register write to a busy engine is dropped, ignored, or one of CTRL and STATUS (10_state.md R38). -/
theorem ofWriteReg {s : State} (h : s.busy = true) (v : Word) (r : Reg) : s.sameCommand (s.writeReg v r) := by
  cases r with
  | id | caps | ctrl | status | resultLen => rfl
  | cmd | srcAddr | srcLen | seedAddr | seedLen | dstAddr | outLen | kcfg0 | kcfg1 =>
    rw [State.writeReg, s.unlessBusy_busy h]
    rfl

theorem ofHostWriteBuf {s : State} (h : s.busy = true) (a : Nat) (v : Bytes) :
    s.sameCommand (s.hostWriteBuf a v) := by
  rw [State.hostWriteBuf_busy h]
  rfl

theorem ofStore32 {s t : State} {off : Nat} {v : Word} (h : s.busy = true) (e : s.store32 off v = .ok t) :
    s.sameCommand t := by
  rcases State.store32_eq_ok e with rfl | ⟨r, -, -, rfl⟩ | ⟨a, -, -, -, rfl⟩
  exacts [refl _, ofWriteReg h v r, ofHostWriteBuf h a _]

theorem ofStore8 {s t : State} {off : Nat} {v : Byte} (h : s.busy = true) (e : s.store8 off v = .ok t) :
    s.sameCommand t := by
  rcases State.store8_eq_ok e with rfl | ⟨a, -, -, rfl⟩
  exacts [refl _, ofHostWriteBuf h a _]

theorem ofPerform {s t : State} {op : HostOp} {rest : List HostOp} (h : s.busy = true)
    (e : s.perform op rest = .next t) : s.sameCommand t := by
  have hu : s.sameCommand { s with hostOps := rest } := rfl
  rcases State.perform_eq_next e with ⟨_, _, -, e⟩ | ⟨_, _, -, e⟩ | ⟨-, v, rfl⟩ | ⟨-, ⟨-, rfl⟩ | ⟨-, rfl⟩⟩
  · exact hu.trans (ofStore32 h e)
  · exact hu.trans (ofStore8 h e)
  all_goals rfl

/-- A host turn of a busy engine leaves the command (60_exceptions.md R337). -/
theorem ofHostStep {s t : State} (h : s.busy = true) (ht : s.nextTurn.1 = .host) (e : step s = .next t) :
    s.sameCommand t := by
  have hu := ofNextTurn s
  have hb : s.nextTurn.2.busy = true := by rw [s.nextTurn_snd]; exact h
  rcases step_eq_next e with ⟨hr, -⟩ | ⟨hr, -⟩ | ⟨hr, -⟩ | ⟨hr, -⟩ | ⟨-, -, rfl⟩ | ⟨-, op, rest, -, e⟩
  · exact nomatch ht.symm.trans hr
  · exact nomatch ht.symm.trans hr
  · exact nomatch ht.symm.trans hr
  · exact nomatch ht.symm.trans hr
  · exact hu
  · exact hu.trans (ofPerform hb e)

end State.sameCommand

/-- Settles O55: a host turn of a busy engine leaves everything the command reads, and its results. -/
theorem busyHostTurnsFreezeTheCommand : Obligations.BusyHostTurnsFreezeTheCommand := by
  intro s t hb ht e
  rw [State.sameCommand.ofHostStep hb ht e]
  exact ⟨hb, rfl, rfl, rfl, rfl, rfl, rfl, rfl, rfl, rfl, rfl, rfl, rfl, rfl, rfl, rfl, rfl⟩

end Sys2Proof.Machine
end

section
/-! SUPPORT. The key-slot window of an idle engine (10_state.md R48), and the statements about registers and the window. -/

namespace Sys2Proof.Machine

/-! ### The key-slot window -/

/-- An offset of the window by slot and byte, the two ways it is written. -/
theorem window_offset (k j : Nat) : 0x1000 + 0x400 * k + j = 0x1000 + (0x400 * k + j) := Nat.add_assoc ..

/-- The byte of slot `k` at offset `j` of its part of the window (10_state.md R48). -/
theorem State.hostWindowByte_idle {s : State} (h : s.busy = false) (k : Nat) {j : Nat} (hj : j < 0x400) :
    s.hostWindowByte (0x400 * k + j) = if k < s.params.nks then (s.slot k).windowByte j else 0 := by
  have hk : (0x400 * k + j) / 0x400 = k := by omega
  have hm : (0x400 * k + j) % 0x400 = j := by omega
  simp [State.hostWindowByte, h, State.windowByte, hk, hm]

/-- Four bytes read at once, each one a byte of the word (20_memory.md R80). -/
theorem extractLsb'_fourBytes (f : Nat → Byte) (a : Nat) {i : Nat} (hi : i < 4) :
    (fourBytes f a).extractLsb' (8 * i) 8 = f (a + i) := by
  obtain ⟨h0, h1, h2, h3⟩ := wordByte_leWord (f a) (f (a + 1)) (f (a + 2)) (f (a + 3))
  match i, hi with
  | 0, _ => exact h0
  | 1, _ => exact h1
  | 2, _ => exact h2
  | 3, _ => exact h3

/-- Four bytes that are the bytes of a word are that word. -/
theorem fourBytes_eq {f : Nat → Byte} {a : Nat} {w : Word} (h : ∀ i, i < 4 → f (a + i) = wordByte w i) :
    fourBytes f a = w := by
  have h0 : f a = wordByte w 0 := h 0 (by decide)
  rw [fourBytes, h0, h 1 (by decide), h 2 (by decide), h 3 (by decide), leWord_wordByte]

section
variable {s : State} {k : Nat}

theorem State.load8_slot (h : s.busy = false) (hk : k < 16) {j : Nat} (hj : j < 0x400) :
    s.load8 (0x1000 + 0x400 * k + j)
      = .ok (if k < s.params.nks then (s.slot k).windowByte j else 0) := by
  rw [window_offset, s.load8_window (by omega), State.hostWindowByte_idle h k hj]

theorem State.load32_slot (hk : k < 16) {j : Nat} (hj : j < 0x400) (h4 : j % 4 = 0) :
    s.load32 (0x1000 + 0x400 * k + j) = .ok (fourBytes s.hostWindowByte (0x400 * k + j)) := by
  rw [window_offset, s.load32_window (by omega) (by omega)]

/-- A 32-bit read answers the word whose bytes the window shows there. -/
theorem State.load32_slot_eq (h : s.busy = false) (hk : k < 16) {j : Nat} (hj : j < 0x400) (h4 : j % 4 = 0) {w : Word}
    (hw : ∀ i, i < 4 → (if k < s.params.nks then (s.slot k).windowByte (j + i) else 0) = wordByte w i) :
    s.load32 (0x1000 + 0x400 * k + j) = .ok w := by
  rw [State.load32_slot hk hj h4, fourBytes_eq fun i hi => ?_]
  rw [Nat.add_assoc, State.hostWindowByte_idle h k (by omega), hw i hi]

end

/-! Each field of a slot's part of the window (10_state.md R48). -/

theorem KeySlot.windowByte_kmeta (ks : KeySlot) {i : Nat} (h : i < 4) :
    ks.windowByte (0x000 + i) = wordByte ks.kmeta i := by
  rw [KeySlot.windowByte, if_pos (by omega), Nat.zero_add]

theorem KeySlot.windowByte_kskl (ks : KeySlot) {i : Nat} (h : i < 4) :
    ks.windowByte (0x004 + i) = wordByte ks.kskl i := by
  rw [KeySlot.windowByte, if_neg (by omega), if_pos (by omega), Nat.add_sub_cancel_left]

theorem KeySlot.windowByte_klen (ks : KeySlot) {i : Nat} (h : i < 4) :
    ks.windowByte (0x008 + i) = wordByte ks.klenWord i := by
  rw [KeySlot.windowByte, if_neg (by omega), if_neg (by omega), if_pos (by omega), Nat.add_sub_cancel_left]

theorem KeySlot.windowByte_reserved (ks : KeySlot) {i : Nat} (h : i < 4) : ks.windowByte (0x00C + i) = 0 := by
  rw [KeySlot.windowByte, if_neg (by omega), if_neg (by omega), if_neg (by omega), if_pos (by omega)]

theorem KeySlot.windowByte_iv (ks : KeySlot) {i : Nat} (h : i < 16) :
    ks.windowByte (0x010 + i) = keyByte ks.iv ks.ebs.toNat i := by
  rw [KeySlot.windowByte, if_neg (by omega), if_neg (by omega), if_neg (by omega), if_neg (by omega),
    if_pos (by omega), Nat.add_sub_cancel_left]

theorem KeySlot.windowByte_ek (ks : KeySlot) {i : Nat} (h : i < 32) :
    ks.windowByte (0x020 + i) = keyByte ks.ek ks.ekl.toNat i := by
  rw [KeySlot.windowByte, if_neg (by omega), if_neg (by omega), if_neg (by omega), if_neg (by omega),
    if_neg (by omega), if_pos (by omega), Nat.add_sub_cancel_left]

theorem KeySlot.windowByte_sk (ks : KeySlot) (i : Nat) :
    ks.windowByte (0x040 + i) = keyByte ks.sk ks.skl.toNat i := by
  rw [KeySlot.windowByte, if_neg (by omega), if_neg (by omega), if_neg (by omega), if_neg (by omega),
    if_neg (by omega), if_neg (by omega), Nat.add_sub_cancel_left]

theorem KeySlot.kmeta_toNat (ks : KeySlot) : ks.kmeta.toNat
    = ks.valid.toNat + 2 ^ 8 * (algCode ks.alg).toNat + 2 ^ 12 * (hashCode ks.hash).toNat := by
  simp only [KeySlot.kmeta, toNat_append_eq_add, bit_toNat, BitVec.toNat_zero]
  omega

theorem KeySlot.kskl_toNat (ks : KeySlot) : ks.kskl.toNat = ks.skl.toNat := by
  simp only [KeySlot.kskl, toNat_append_eq_add, BitVec.toNat_zero, Nat.zero_mul, Nat.zero_add]

theorem KeySlot.klenWord_toNat (ks : KeySlot) :
    ks.klenWord.toNat = ks.ekl.toNat + 2 ^ 8 * ks.ebs.toNat + 2 ^ 16 * ks.sgl.toNat := by
  simp only [KeySlot.klenWord, toNat_append_eq_add, BitVec.toNat_zero]
  omega

/-- The part of an existing slot, field by field. -/
theorem State.window_fields {s : State} {k : Nat} (h : s.busy = false) (hk : k < 16) (hn : k < s.params.nks) :
    (s.load32 (0x1000 + 0x400 * k) = .ok (s.slot k).kmeta
      ∧ s.load32 (0x1000 + 0x400 * k + 0x004) = .ok (s.slot k).kskl
      ∧ s.load32 (0x1000 + 0x400 * k + 0x008) = .ok (s.slot k).klenWord
      ∧ s.load32 (0x1000 + 0x400 * k + 0x00C) = .ok 0)
    ∧ (∀ i, i < 16 → s.load8 (0x1000 + 0x400 * k + 0x010 + i)
        = .ok (keyByte (s.slot k).iv (s.slot k).ebs.toNat i))
    ∧ (∀ i, i < 32 → s.load8 (0x1000 + 0x400 * k + 0x020 + i)
        = .ok (keyByte (s.slot k).ek (s.slot k).ekl.toNat i))
    ∧ (∀ i, i < 960 → s.load8 (0x1000 + 0x400 * k + 0x040 + i)
        = .ok (keyByte (s.slot k).sk (s.slot k).skl.toNat i)) := by
  have word : ∀ {j : Nat} {w : Word}, j < 0x400 → j % 4 = 0 →
      (∀ i, i < 4 → (s.slot k).windowByte (j + i) = wordByte w i) → s.load32 (0x1000 + 0x400 * k + j) = .ok w :=
    fun hj h4 hw => State.load32_slot_eq h hk hj h4 fun i hi => (if_pos hn).trans (hw i hi)
  have byte : ∀ {j : Nat}, j < 0x400 → s.load8 (0x1000 + 0x400 * k + j) = .ok ((s.slot k).windowByte j) :=
    fun hj => (State.load8_slot h hk hj).trans (by rw [if_pos hn])
  refine ⟨⟨?_, ?_, ?_, ?_⟩, fun i hi => ?_, fun i hi => ?_, fun i hi => ?_⟩
  · exact word (j := 0) (by decide) rfl fun i hi => KeySlot.windowByte_kmeta _ hi
  · exact word (by decide) rfl fun i hi => KeySlot.windowByte_kskl _ hi
  · exact word (by decide) rfl fun i hi => KeySlot.windowByte_klen _ hi
  · refine word (by decide) rfl fun i hi => (KeySlot.windowByte_reserved _ hi).trans ?_
    simp [wordByte]
  · rw [Nat.add_assoc _ 0x010, byte (by omega), KeySlot.windowByte_iv _ hi]
  · rw [Nat.add_assoc _ 0x020, byte (by omega), KeySlot.windowByte_ek _ hi]
  · rw [Nat.add_assoc _ 0x040, byte (by omega), KeySlot.windowByte_sk]

/-- The part of a slot that does not exist reads as zero at both widths. -/
theorem State.window_absent {s : State} {k j : Nat} (h : s.busy = false) (hk : k < 16) (hn : s.params.nks ≤ k)
    (hj : j < 0x400) : s.load8 (0x1000 + 0x400 * k + j) = .ok 0
      ∧ (j % 4 = 0 → s.load32 (0x1000 + 0x400 * k + j) = .ok 0) := by
  refine ⟨by rw [State.load8_slot h hk hj, if_neg (by omega)], fun h4 => ?_⟩
  refine State.load32_slot_eq h hk hj h4 fun i _ => ?_
  rw [if_neg (by omega)]
  simp [wordByte]

/-- Settles O57: the window by the fields of a slot, by the parts of absent slots, and by the bytes of each word. -/
theorem keyWindowShowsTheSlot : Obligations.KeyWindowShowsTheSlot := by
  rintro s k _ h hk rfl
  refine ⟨fun hn => ?_, fun hn j => State.window_absent h hk hn, fun j hj h4 => ?_, fun j v b hj => ?_⟩
  · obtain ⟨⟨hmeta, hskl, hlen, hres⟩, hiv, hek, hsk⟩ := State.window_fields h hk hn
    exact ⟨⟨_, hmeta, KeySlot.kmeta_toNat _⟩, ⟨_, hskl, KeySlot.kskl_toNat _⟩, ⟨_, hlen, KeySlot.klenWord_toNat _⟩,
      hres, hiv, hek, hsk⟩
  · refine ⟨_, State.load32_slot hk hj h4, fun i hi => ?_⟩
    rw [extractLsb'_fourBytes _ _ hi, Nat.add_assoc, window_offset, s.load8_window (by omega), Nat.add_assoc]
  · rw [window_offset]
    exact ⟨s.store8_window b (by omega), fun h4 => s.store32_window v (by omega) (by omega)⟩

/-! ### The registers -/

/-- Settles O10, register by register. -/
theorem resetStateIsAsTheSpecSays : Obligations.ResetStateIsAsTheSpecSays := by
  refine ⟨rfl, fun _ => rfl, fun p r hid hcaps => ?_, fun _ => rfl, fun p hp => capsWord_toNat hp, by decide,
    fun _ => rfl, fun _ _ => rfl, fun _ => rfl⟩
  cases r with
  | id => exact absurd rfl hid
  | caps => exact absurd rfl hcaps
  | ctrl => exact BitVec.eq_of_toNat_eq (State.readReg_ctrl_toNat _)
  | status => exact BitVec.eq_of_toNat_eq (State.statusWord_toNat _)
  | kcfg0 => exact BitVec.eq_of_toNat_eq (State.readReg_kcfg0_toNat _)
  | kcfg1 => exact BitVec.eq_of_toNat_eq (State.readReg_kcfg1_toNat _)
  | cmd | srcAddr | srcLen | seedAddr | seedLen | dstAddr | outLen | resultLen => rfl

/-- Settles O48. -/
theorem identityRegistersAreReadOnly : Obligations.IdentityRegistersAreReadOnly := fun s v hp =>
  ⟨s.load32_register .id, ⟨_, s.load32_register .caps, capsWord_toNat hp, fun hd => by
    rw [State.readReg, hd]
    decide⟩, s.store32_register v .id, s.store32_register v .caps⟩

/-- Settles O49: the listed registers by name, and the reserved offsets. -/
theorem registerPageReadsAsTheTable : Obligations.RegisterPageReadsAsTheTable := fun s =>
  ⟨⟨_, s.load32_register .ctrl, s.readReg_ctrl_toNat⟩,
    ⟨_, s.load32_register .status, s.statusWord_toNat⟩,
    s.load32_register .cmd, s.load32_register .srcAddr, s.load32_register .srcLen, s.load32_register .seedAddr,
    s.load32_register .seedLen, s.load32_register .dstAddr, s.load32_register .outLen,
    ⟨_, s.load32_register .kcfg0, s.readReg_kcfg0_toNat⟩,
    ⟨_, s.load32_register .kcfg1, s.readReg_kcfg1_toNat⟩,
    s.load32_register .resultLen, fun _ => s.load32_reserved⟩

/-- An idle write to a register that only an idle engine takes stores it (10_state.md R38, R39). -/
theorem State.store32_idle {s t : State} (h : s.busy = false) {r : Reg} {v : Word}
    (ht : s.writeReg v r = s.unlessBusy t) : s.store32 r.offset v = .ok t := by
  rw [s.store32_register, ht, s.unlessBusy_idle h]

/-- Settles O50: the writes of an idle engine, and what KCFG0 and KCFG1 read back. -/
theorem operandWritesAreStored : Obligations.OperandWritesAreStored := by
  intro s v h
  have hstored : s.store32 0x014 v = .ok { s with srcAddr := v } ∧ s.store32 0x018 v = .ok { s with srcLen := v }
      ∧ s.store32 0x01C v = .ok { s with seedAddr := v } ∧ s.store32 0x020 v = .ok { s with seedLen := v }
      ∧ s.store32 0x024 v = .ok { s with dstAddr := v } ∧ s.store32 0x028 v = .ok { s with outLen := v } :=
    ⟨State.store32_idle (r := .srcAddr) h rfl, State.store32_idle (r := .srcLen) h rfl,
      State.store32_idle (r := .seedAddr) h rfl, State.store32_idle (r := .seedLen) h rfl,
      State.store32_idle (r := .dstAddr) h rfl, State.store32_idle (r := .outLen) h rfl⟩
  refine ⟨hstored, ?_, ⟨_, State.store32_idle (r := .kcfg0) h rfl, ?_, rfl⟩,
    ⟨_, State.store32_idle (r := .kcfg1) h rfl, ?_, rfl⟩⟩
  · obtain ⟨hsrc, hsrcLen, hseed, hseedLen, hdst, hout⟩ := hstored
    simp only [List.forall_mem_cons]
    exact ⟨⟨_, hsrc, State.load32_register _ .srcAddr⟩, ⟨_, hsrcLen, State.load32_register _ .srcLen⟩,
      ⟨_, hseed, State.load32_register _ .seedAddr⟩, ⟨_, hseedLen, State.load32_register _ .seedLen⟩,
      ⟨_, hdst, State.load32_register _ .dstAddr⟩, ⟨_, hout, State.load32_register _ .outLen⟩, nofun⟩
  · exact (State.load32_register _ .kcfg0).trans (congrArg _ (kcfg0_readback v))
  · exact (State.load32_register _ .kcfg1).trans (congrArg _ (kcfg1_readback v))

/-- Settles O51. -/
theorem controlWriteSetsTheEnable : Obligations.ControlWriteSetsTheEnable := fun s v =>
  ⟨_, s.store32_register v .ctrl, rfl,
    (State.load32_register _ .ctrl).trans (congrArg _ (ctrl_readback v)), rfl⟩

/-- Settles O52. -/
theorem statusWriteClearsByOnes : Obligations.StatusWriteClearsByOnes := fun s v =>
  ⟨_, (s.store32_register v .status).trans (congrArg _ (s.ackStatus_eq v)), rfl, rfl, rfl, rfl, rfl⟩

/-- Settles O53: the write is the accept, and an undefined word completes with ILLEGAL. -/
theorem commandWriteIsAccepted : Obligations.CommandWriteIsAccepted := by
  intro s v h
  refine ⟨s.accept v, State.store32_idle (r := .cmd) h rfl, rfl, State.load32_register _ .cmd, fun r hr => ?_⟩
  refine ⟨(s.accept v).completeError .illegal, ?_, rfl, rfl, rfl, rfl, rfl, rfl, rfl, rfl⟩
  simp [State.engineTurn, State.runCommand, hr]

/-- A busy engine drops a write to a register that only an idle engine takes (10_state.md R38). -/
theorem State.store32_busy {s t : State} (h : s.busy = true) {r : Reg} {v : Word}
    (ht : s.writeReg v r = s.unlessBusy t) : s.store32 r.offset v = .ok { s with werr := true } := by
  rw [s.store32_register, ht, s.unlessBusy_busy h]
  rfl

/-- Settles O54: the dropped writes by register and in `BUF`, the ignored ones, and the two that are performed. -/
theorem busyWritesAreDropped : Obligations.BusyWritesAreDropped := by
  intro s v b
  refine ⟨fun h => ?_, fun h a ha => ⟨?_, fun h4 => ?_⟩, fun off h4 hoff => ?_, fun off hlo hhi => ?_,
    s.store32_register v .ctrl, (s.store32_register v .status).trans (congrArg _ (s.ackStatus_eq v))⟩
  · simp only [List.forall_mem_cons]
    exact ⟨State.store32_busy (r := .cmd) h rfl, State.store32_busy (r := .srcAddr) h rfl,
      State.store32_busy (r := .srcLen) h rfl, State.store32_busy (r := .seedAddr) h rfl,
      State.store32_busy (r := .seedLen) h rfl, State.store32_busy (r := .dstAddr) h rfl,
      State.store32_busy (r := .outLen) h rfl, State.store32_busy (r := .kcfg0) h rfl,
      State.store32_busy (r := .kcfg1) h rfl, nofun⟩
  · rw [s.store8_buffer ha, State.hostWriteBuf_busy h]
    rfl
  · rw [s.store32_buffer ha h4, State.hostWriteBuf_busy h]
    rfl
  · rcases hoff with hro | ⟨hlo, hhi⟩
    · simp only [List.mem_cons, List.not_mem_nil, or_false] at hro
      rcases hro with rfl | rfl | rfl
      exacts [s.store32_register v .id, s.store32_register v .caps, s.store32_register v .resultLen]
    · rcases Nat.lt_or_ge off 0x1000 with hp | hp
      · exact s.store32_reserved v hlo hp h4
      · obtain ⟨j, rfl⟩ := Nat.exists_eq_add_of_le hp
        exact s.store32_window v (by omega) (by omega)
  · obtain ⟨j, rfl⟩ := Nat.exists_eq_add_of_le hlo
    exact s.store8_window b (by omega)

/-- Settles O56: the invariant's cleared results, read through STATUS and RESULT_LEN. -/
theorem busyStatusShowsNoResult : Obligations.BusyStatusShowsNoResult := by
  intro s hs hb
  have hi := State.inv_iff.1 hs
  obtain ⟨hd, he, ha, hr⟩ := hi.busyClear hb
  refine ⟨⟨_, s.load32_register .status, ?_⟩, (s.load32_register .resultLen).trans (congrArg _ hr)⟩
  have hcode := hi.errIff.1 he
  simp [State.readReg, s.statusWord_toNat, hb, hd, he, ha, hcode, ErrCode.code]

end Sys2Proof.Machine
end

section
/-! SUPPORT. Host turns and what they leave of the block, the accesses that draw a bus error, and the bytes of `BUF`
as the host reads and writes them (20_memory.md R80 to R85, R100). -/

namespace Sys2Proof.Machine

/-! ### The host's turn -/

/-- On the host's turn the step is its next operation, with that turn taken from the schedule (20_memory.md R100). -/
theorem step_of_host_turn {s : State} {op : HostOp} {rest : List HostOp} (ht : s.nextTurn.1 = .host)
    (ho : s.hostOps = op :: rest) : step s = s.nextTurn.2.perform op rest := by
  have hu : s.nextTurn.2.hostOps = op :: rest := by rw [s.nextTurn_snd]; exact ho
  simp only [step, State.advance, ht, State.takeTurn, State.hostTurn, hu]

/-- A step that issues no host operation answers a next state. -/
theorem step_next_or_perform (s : State) :
    (¬(s.nextTurn.1 = .host ∧ ∃ op rest, s.hostOps = op :: rest) ∧ ∃ t, step s = .next t)
    ∨ (s.nextTurn.1 = .host ∧ ∃ op rest, s.hostOps = op :: rest ∧ step s = s.nextTurn.2.perform op rest) := by
  have hu : s.nextTurn.2.hostOps = s.hostOps := by rw [s.nextTurn_snd]
  cases ht : s.nextTurn.1 with
  | reset => exact .inl ⟨nofun, _, by rw [step, State.advance, ht]; rfl⟩
  | engine =>
    refine .inl ⟨nofun, ?_⟩
    simp only [step, State.advance, ht, State.takeTurn, State.engineTurn, State.runCommand, exec_eq_commandRule]
    split
    · split <;> exact ⟨_, rfl⟩
    · exact ⟨_, rfl⟩
  | host =>
    cases ho : s.hostOps with
    | nil =>
      rw [ho] at hu
      refine .inl ⟨nofun, s.nextTurn.2, ?_⟩
      simp only [step, State.advance, ht, State.takeTurn, State.hostTurn, hu]
    | cons op rest => exact .inr ⟨rfl, op, rest, rfl, step_of_host_turn ht ho⟩

/-- The two ways the host's turn comes: by default while the engine is idle, and from the schedule (log 2). -/
theorem State.nextTurn_eq_host {s : State} {ts : List Turn}
    (h : (s.turns = [] ∧ s.busy = false ∧ ts = []) ∨ s.turns = .host :: ts) :
    s.nextTurn = (.host, { s with turns := ts }) := by
  rcases h with ⟨ht, hb, rfl⟩ | ht
  · have hn : s.nextTurn = (.host, s) := by simp [State.nextTurn, ht, hb]
    rw [hn, ← ht]
  · simp only [State.nextTurn, ht]

/-! ### Each host operation (30_encoding.md R120) -/

section
variable (s : State) (rest : List HostOp)

theorem State.perform_read32 (off : Word) : s.perform (.read32 off) rest
    = outcomeOf ((s.load32 off.toNat).map ({ s with hostOps := rest } : State).noteRead) := rfl

theorem State.perform_read8 (off : Word) : s.perform (.read8 off) rest
    = outcomeOf ((s.load8 off.toNat).map fun b => ({ s with hostOps := rest } : State).noteRead (b.setWidth 32)) := rfl

theorem State.perform_wait :
    s.perform .wait rest = .next (if s.busy then s else { s with hostOps := rest }) := by
  rw [State.perform, s.statusWord_bit_zero]

end

/-- Settles O9: the turn by its two origins, then each operation. -/
theorem hostTurnIssuesTheNextOperation : Obligations.HostTurnIssuesTheNextOperation := by
  rintro s u op rest ts ho ht rfl
  have hstep : step s = ({ s with turns := ts } : State).perform op rest := by
    have hn := s.nextTurn_eq_host ht
    rw [step_of_host_turn (by rw [hn]) ho, hn]
  rw [hstep]
  have load32_eq (off : Nat) : ({ s with turns := ts } : State).load32 off = s.load32 off := rfl
  have load8_eq (off : Nat) : ({ s with turns := ts } : State).load8 off = s.load8 off := rfl
  refine ⟨?_, ?_, ?_, ?_, ?_, ?_, ?_, ?_, ?_⟩
  · rintro off v rfl; rfl
  · rintro off v rfl; rfl
  · rintro off v rfl hl; rw [State.perform_read32, load32_eq, hl]; rfl
  · rintro off f rfl hl; rw [State.perform_read32, load32_eq, hl]; rfl
  · rintro off v rfl hl; rw [State.perform_read8, load8_eq, hl]; rfl
  · rintro off f rfl hl; rw [State.perform_read8, load8_eq, hl]; rfl
  · rintro off rfl; rfl
  · rintro rfl hb; rw [State.perform_wait, if_neg (by simp [hb])]
  · rintro rfl hb; rw [State.perform_wait, if_pos hb]

/-! ### Reads leave the block (20_memory.md R83) -/

/-- A host operation that is no write leaves the block: it notes a value, or is a WAIT. -/
theorem State.perform_sameBlock {s t : State} {op : HostOp} {rest : List HostOp} (hw : op.isWrite = false)
    (h : s.perform op rest = .next t) : s.sameBlock t := by
  rcases State.perform_eq_next h with ⟨_, _, rfl, -⟩ | ⟨_, _, rfl, -⟩ | ⟨-, v, rfl⟩ | ⟨-, ⟨-, rfl⟩ | ⟨-, rfl⟩⟩
  · cases hw
  · cases hw
  all_goals rfl

/-- The turn taken from the schedule is no part of the block. -/
theorem State.sameBlock_of_nextTurn {s t : State} (h : s.nextTurn.2.sameBlock t) : s.sameBlock t := by
  rw [s.nextTurn_snd] at h
  exact h

/-- Settles O59. -/
theorem hostReadsLeaveTheBlock : Obligations.HostReadsLeaveTheBlock := by
  intro s t op rest ht ho hw h
  rw [step_of_host_turn ht ho] at h
  exact State.sameBlock_of_nextTurn (State.perform_sameBlock hw h)

/-! ### The accesses that draw a bus error (20_memory.md R82, R84, R85) -/

/-- The unmapped offsets lie outside the pages and outside `BUF`. -/
theorem locate_eq_unmapped_iff {p : Params} {off : Nat} :
    locate p off = .unmapped ↔ (inPages off || inBuffer p off) = false := by
  simp only [inPages, inBuffer, Bool.or_eq_false_iff, Bool.and_eq_false_iff, decide_eq_false_iff_not]
  unfold locate
  split_ifs <;> simp only [true_iff, false_iff] <;> omega

/-- The offsets that take no 8-bit access lie outside the key-slot window and outside `BUF`. -/
theorem locate_register_or_unmapped_iff {p : Params} {off : Nat} :
    (∃ o, locate p off = .register o) ∨ locate p off = .unmapped ↔ (inWindow off || inBuffer p off) = false := by
  simp only [inWindow, inBuffer, Bool.or_eq_false_iff, Bool.and_eq_false_iff, decide_eq_false_iff_not]
  unfold locate
  split_ifs <;>
    simp only [Place.register.injEq, exists_eq', exists_false, true_or, or_true, or_self, true_iff, false_iff] <;>
    omega

section
variable (s : State) (off : Nat)

theorem State.load32_faults_iff :
    (∃ f, s.load32 off = .error f) ↔ off % 4 ≠ 0 ∨ locate s.params off = .unmapped := by
  unfold State.load32
  split_ifs with h4
  · simp [h4]
  · cases locate s.params off with
    | register o => cases hr : Reg.atOffset o <;> simp [h4, hr]
    | window | buffer | unmapped => simp [h4]

theorem State.store32_faults_iff (v : Word) :
    (∃ f, s.store32 off v = .error f) ↔ off % 4 ≠ 0 ∨ locate s.params off = .unmapped := by
  unfold State.store32
  split_ifs with h4
  · simp [h4]
  · cases locate s.params off with
    | register o => cases hr : Reg.atOffset o <;> simp [h4, hr]
    | window | buffer | unmapped => simp [h4]

theorem State.load8_faults_iff : (∃ f, s.load8 off = .error f) ↔
    (∃ o, locate s.params off = .register o) ∨ locate s.params off = .unmapped := by
  unfold State.load8
  cases locate s.params off <;> simp

theorem State.store8_faults_iff (v : Byte) : (∃ f, s.store8 off v = .error f) ↔
    (∃ o, locate s.params off = .register o) ∨ locate s.params off = .unmapped := by
  unfold State.store8
  cases locate s.params off <;> simp

end

theorem outcomeOf_faults_iff {x : Except Fault State} :
    (∃ f, outcomeOf x = .fault f) ↔ ∃ f, x = .error f :=
  exists_congr fun _ => outcomeOf_eq_fault

theorem outcomeOf_map_faults_iff {α : Type} {x : Except Fault α} {g : α → State} :
    (∃ f, outcomeOf (x.map g) = .fault f) ↔ ∃ f, x = .error f := by
  cases x <;> simp [Except.map, outcomeOf]

/-- A 32-bit access is allowed where it is aligned and mapped. -/
theorem allowed32_eq_false_iff {p : Params} {off : Nat} :
    (decide (off % 4 = 0) && (inPages off || inBuffer p off)) = false
      ↔ off % 4 ≠ 0 ∨ locate p off = .unmapped := by
  rw [Bool.and_eq_false_iff, decide_eq_false_iff_not, locate_eq_unmapped_iff]

/-- A host operation faults exactly when it is not allowed. -/
theorem State.perform_faults_iff (s : State) (op : HostOp) (rest : List HostOp) :
    (∃ f, s.perform op rest = .fault f) ↔ op.allowed s.params = false := by
  cases op with
  | write32 off v =>
    exact outcomeOf_faults_iff.trans ((State.store32_faults_iff ..).trans allowed32_eq_false_iff.symm)
  | write8 off v =>
    exact outcomeOf_faults_iff.trans ((State.store8_faults_iff ..).trans locate_register_or_unmapped_iff)
  | read32 off =>
    exact outcomeOf_map_faults_iff.trans ((State.load32_faults_iff ..).trans allowed32_eq_false_iff.symm)
  | read8 off =>
    exact outcomeOf_map_faults_iff.trans ((State.load8_faults_iff ..).trans locate_register_or_unmapped_iff)
  | otherWidth off => exact ⟨fun _ => rfl, fun _ => ⟨_, rfl⟩⟩
  | wait => exact ⟨nofun, nofun⟩

theorem State.perform_ne_refused (s : State) (op : HostOp) (rest : List HostOp) (r : Refusal) :
    s.perform op rest ≠ .refused r := by
  cases op with
  | write32 | write8 | read32 | read8 => exact outcomeOf_ne_refused _ r
  | otherWidth | wait => exact nofun

/-- Settles O16: only a host operation can fault, and it does so when it is not allowed. -/
theorem stepFaultsExactlyOnBusErrors : Obligations.StepFaultsExactlyOnBusErrors := by
  intro s
  have hparams : s.nextTurn.2.params = s.params := by rw [s.nextTurn_snd]
  rcases step_next_or_perform s with ⟨hno, t, h⟩ | ⟨ht, op, rest, ho, h⟩
  · rw [h]
    exact ⟨nofun, nofun, fun ⟨ht, op, rest, ho, _⟩ => absurd ⟨ht, op, rest, ho⟩ hno⟩
  · rw [h, State.perform_faults_iff, hparams, ho]
    refine ⟨State.perform_ne_refused _ op rest, fun hop => ⟨ht, op, rest, rfl, hop⟩, ?_⟩
    rintro ⟨-, _, _, hcons, hop⟩
    cases hcons
    exact hop

/-! ### The bytes of `BUF` (20_memory.md R80, R83) -/

theorem State.hostWriteBuf_idle {s : State} (h : s.busy = false) (a : Nat) (v : Bytes) :
    s.hostWriteBuf a v = { s with buf := s.buf.writeBytes a v } := s.unlessBusy_idle h _

/-- The host of an idle engine reads the byte written before. -/
theorem State.hostBufByte_written {s : State} (h : s.busy = false) {a : Nat} {b : Byte}
    (hb : s.buf.read a = some b) : s.hostBufByte a = b := by
  simp [State.hostBufByte, h, State.byteAt, hb]

theorem State.load8_written {s : State} (h : s.busy = false) {a : Nat} {b : Byte} (ha : a < s.params.bufSize)
    (hb : s.buf.read a = some b) : s.load8 (0x10000 + a) = .ok b := by
  rw [s.load8_buffer ha, State.hostBufByte_written h hb]

theorem State.load32_written {s : State} (h : s.busy = false) {a : Nat} {v : Word} (h4 : a % 4 = 0)
    (ha : a < s.params.bufSize) (hb : ∀ i, i < 4 → s.buf.read (a + i) = some (wordByte v i)) :
    s.load32 (0x10000 + a) = .ok v := by
  rw [s.load32_buffer ha h4, fourBytes_eq fun i hi => State.hostBufByte_written h (hb i hi)]

theorem leBytes_getElem? (v : Word) {i : Nat} (hi : i < 4) : (leBytes v)[i]? = some (wordByte v i) := by
  match i, hi with
  | 0, _ | 1, _ | 2, _ | 3, _ => rfl

/-- Byte `i` of a written word stands at `a + i` (20_memory.md R80). -/
theorem Memory.read_writeBytes_leBytes (m : Memory) (a : Nat) (v : Word) {i : Nat} (hi : i < 4) :
    (m.writeBytes a (leBytes v)).read (a + i) = some (wordByte v i) := by
  rw [Memory.read_writeBytes, leBytes_length, if_pos (by omega), Nat.add_sub_cancel_left, leBytes_getElem? v hi]

/-- Settles O58: what each width stores, read back by the laws of the memory and the reads of written bytes. -/
theorem bufferWordsAreLittleEndian : Obligations.BufferWordsAreLittleEndian := by
  intro s a h
  refine ⟨fun v h4 ha => ?_, fun b ha => ?_, fun b ha hb => State.load8_written h ha hb,
    fun v h4 ha hv => State.load32_written h h4 (by omega) hv⟩
  · have hread : ∀ i, i < 4 → (s.buf.writeBytes a (leBytes v)).read (a + i) = some (wordByte v i) :=
      fun _ => s.buf.read_writeBytes_leBytes a v
    have hidle : ({ s with buf := s.buf.writeBytes a (leBytes v) } : State).busy = false := h
    have hinside : ∀ i, i < 4 → a + i < s.params.bufSize := fun i hi => by omega
    refine ⟨_, ?_, rfl, fun i hi => ⟨hread i hi, ?_⟩,
      State.load32_written hidle h4 (hinside 0 (by decide)) hread, fun c hc => ?_⟩
    · rw [s.store32_buffer (by omega) h4, State.hostWriteBuf_idle h]
    · rw [Nat.add_assoc]
      exact State.load8_written hidle (hinside i hi) (hread i hi)
    · rw [Memory.read_writeBytes, leBytes_length, if_neg (by omega)]
  · have hread (c : Nat) : (s.buf.writeBytes a [b]).read c = if c = a then some b else s.buf.read c :=
      s.buf.read_write a b c
    have hself : (s.buf.writeBytes a [b]).read a = some b := (hread a).trans (if_pos rfl)
    have hidle : ({ s with buf := s.buf.writeBytes a [b] } : State).busy = false := h
    refine ⟨_, ?_, rfl, hself, State.load8_written hidle ha hself, fun c hc => (hread c).trans (if_neg hc)⟩
    rw [s.store8_buffer ha, State.hostWriteBuf_idle h]

end Sys2Proof.Machine
end

section
/-! SUPPORT. Decoding and encoding command words (30_encoding.md R111, R115, R119): each row of the opcode map, the
numbers of the fields of a command word, and the statements about the encoding. -/

namespace Sys2Proof

/-! ### The opcode map -/

/-- Every mask covers OPC, and no match has a bit outside OPC (30_encoding.md R115). -/
theorem opcodeMap_covers_opc :
    ∀ r ∈ opcodeMap, r.mask &&& 0xFF#32 = 0xFF#32 ∧ r.pattern &&& 0xFF#32 = r.pattern := by decide

/-- The OPC byte differs between rows (30_encoding.md R115). -/
theorem opcodeMap_patterns_nodup : (opcodeMap.map OpcodeRow.pattern).Nodup := by decide

theorem OpcodeRow.accepts_iff {r : OpcodeRow} {w : Word} : r.accepts w = true ↔ w &&& r.mask = r.pattern := beq_iff_eq

/-- No match has a bit that its mask leaves out. -/
theorem OpcodeRow.pattern_and_mask {r : OpcodeRow} (hr : r ∈ opcodeMap) : r.pattern &&& r.mask = r.pattern := by
  obtain ⟨hm, hp⟩ := opcodeMap_covers_opc r hr
  calc r.pattern &&& r.mask = r.pattern &&& (r.mask &&& 0xFF#32) := by
        rw [BitVec.and_comm r.mask, ← BitVec.and_assoc, hp]
    _ = r.pattern := by rw [hm, hp]

/-- A row that accepts a word has the word's OPC byte as its match. -/
theorem OpcodeRow.pattern_of_accepts {r : OpcodeRow} (hr : r ∈ opcodeMap) {w : Word} (ha : r.accepts w = true) :
    r.pattern = w &&& 0xFF#32 := by
  obtain ⟨hm, hp⟩ := opcodeMap_covers_opc r hr
  rw [← hp, ← OpcodeRow.accepts_iff.1 ha, BitVec.and_assoc, hm]

/-- At most one row matches any word (30_encoding.md R115). -/
theorem OpcodeRow.eq_of_accepts {r r' : OpcodeRow} (hr : r ∈ opcodeMap) (hr' : r' ∈ opcodeMap) {w : Word}
    (ha : r.accepts w = true) (ha' : r'.accepts w = true) : r = r' :=
  List.inj_on_of_nodup_map opcodeMap_patterns_nodup hr hr'
    ((pattern_of_accepts hr ha).trans (pattern_of_accepts hr' ha').symm)

/-- What a word decodes to is what a row that accepts it builds. -/
theorem decode_eq_ok_iff {w : Word} {i : Instr} :
    decode w = .ok i ↔ ∃ r ∈ opcodeMap, r.accepts w = true ∧ r.build w = i := by
  unfold decode
  cases hf : opcodeMap.find? (fun r => r.accepts w) with
  | none =>
    refine ⟨nofun, ?_⟩
    rintro ⟨r, hr, ha, -⟩
    exact absurd ha (List.find?_eq_none.1 hf r hr)
  | some r =>
    have hr := List.mem_of_find?_eq_some hf
    have ha : r.accepts w = true := List.find?_some (p := fun r => OpcodeRow.accepts r w) hf
    simp only [Except.ok.injEq]
    refine ⟨fun hb => ⟨r, hr, ha, hb⟩, ?_⟩
    rintro ⟨r', hr', ha', hb⟩
    rw [OpcodeRow.eq_of_accepts hr hr' ha ha', hb]

/-! ### Fields of a word -/

theorem fieldSlot_eq (w : Word) : fieldSlot w = w.toNat / 2 ^ 8 % 16 := by
  rw [fieldSlot, BitVec.extractLsb'_toNat, Nat.shiftRight_eq_div_pow]

theorem fieldHash_eq (w : Word) : fieldHash w = w.toNat / 2 ^ 12 % 4 := by
  rw [fieldHash, BitVec.extractLsb'_toNat, Nat.shiftRight_eq_div_pow]

theorem fieldAlg_eq (w : Word) : fieldAlg w = w.toNat / 2 ^ 14 % 4 := by
  rw [fieldAlg, BitVec.extractLsb'_toNat, Nat.shiftRight_eq_div_pow]

/-- IMM8 is the top byte, so nothing stands above it. -/
theorem fieldImm8_eq (w : Word) : fieldImm8 w = w.toNat / 2 ^ 24 := by
  rw [fieldImm8, BitVec.extractLsb'_toNat, Nat.shiftRight_eq_div_pow]
  omega

/-- A field put back at its place is the word under the mask of that field. -/
theorem field_shifted_back (w : Word) (k n : Nat) :
    BitVec.ofNat 32 (w.extractLsb' k n).toNat <<< k = w &&& ((BitVec.allOnes n).setWidth 32 <<< k) := by
  rw [BitVec.ofNat_toNat]
  ext j hj
  rcases Nat.lt_or_ge j k with h | h
  · simp [h]
  · have hsum : k + (j - k) = j := by omega
    simp [hsum, hj, Nat.not_lt.2 h, Bool.and_comm]

theorem fieldSlot_shifted_back (w : Word) : BitVec.ofNat 32 (fieldSlot w) <<< 8 = w &&& 0x00000F00#32 :=
  field_shifted_back w 8 4

theorem fieldHash_shifted_back (w : Word) : BitVec.ofNat 32 (fieldHash w) <<< 12 = w &&& 0x00003000#32 :=
  field_shifted_back w 12 2

theorem fieldAlg_shifted_back (w : Word) : BitVec.ofNat 32 (fieldAlg w) <<< 14 = w &&& 0x0000C000#32 :=
  field_shifted_back w 14 2

theorem fieldImm8_shifted_back (w : Word) : BitVec.ofNat 32 (fieldImm8 w) <<< 24 = w &&& 0xFF000000#32 :=
  field_shifted_back w 24 8

/-- A number put above the bits of a word adds to it. -/
theorem or_shiftLeft_toNat {x : Word} {a v k : Nat} (hx : x.toNat = a) (ha : a < 2 ^ k) (hv : v * 2 ^ k < 2 ^ 32) :
    (x ||| BitVec.ofNat 32 v <<< k).toNat = a + v * 2 ^ k := by
  have hv' : v < 2 ^ 32 := (Nat.le_mul_of_pos_right v (by positivity)).trans_lt hv
  rw [BitVec.toNat_or, hx, BitVec.toNat_shiftLeft, BitVec.toNat_ofNat, Nat.mod_eq_of_lt hv', Nat.shiftLeft_eq,
    Nat.mod_eq_of_lt hv, ← Nat.shiftLeft_eq, Nat.or_comm, ← Nat.shiftLeft_add_eq_or_of_lt ha, Nat.add_comm]

section
variable {opc slot hash alg bs : Nat} (ho : opc < 256) (hs : slot < 16) (hh : hash < 4) (ha : alg < 4) (hb : bs < 256)
include ho hs hh ha hb

/-- The fields of a command word stand side by side (30_encoding.md R111, R119). -/
theorem commandWord_toNat : (commandWord opc slot hash alg bs).toNat
    = opc + slot * 2 ^ 8 + hash * 2 ^ 12 + alg * 2 ^ 14 + bs * 2 ^ 24 := by
  have hopc : (BitVec.ofNat 32 opc).toNat = opc := Nat.mod_eq_of_lt (by omega)
  have hslot := or_shiftLeft_toNat (k := 8) hopc (by omega) (v := slot) (by omega)
  have hhash := or_shiftLeft_toNat (k := 12) hslot (by omega) (v := hash) (by omega)
  have halg := or_shiftLeft_toNat (k := 14) hhash (by omega) (v := alg) (by omega)
  exact or_shiftLeft_toNat (k := 24) halg (by omega) (by omega)

/-- Each operand is read back from its field. -/
theorem commandWord_fields :
    fieldSlot (commandWord opc slot hash alg bs) = slot ∧ fieldHash (commandWord opc slot hash alg bs) = hash
      ∧ fieldAlg (commandWord opc slot hash alg bs) = alg ∧ fieldImm8 (commandWord opc slot hash alg bs) = bs := by
  simp only [fieldSlot_eq, fieldHash_eq, fieldAlg_eq, fieldImm8_eq, commandWord_toNat ho hs hh ha hb]
  omega

end

/-! ### Building and encoding -/

/-- The operands a row takes from a word fit their fields. -/
theorem OpcodeRow.build_wellFormed {r : OpcodeRow} (hr : r ∈ opcodeMap) (w : Word) :
    (r.build w).wellFormed = true := by
  have hslot : fieldSlot w < 16 := BitVec.isLt _
  have hhash : fieldHash w < 4 := BitVec.isLt _
  have halg : fieldAlg w < 4 := BitVec.isLt _
  have himm : fieldImm8 w < 256 := BitVec.isLt _
  revert r
  simp [opcodeMap, Instr.wellFormed, slotFits, selectorFits, immFits, hslot, hhash, halg, himm]

/-- The word of what a row builds is the row's match with the bits that the row's mask leaves to the operands. -/
theorem OpcodeRow.encode_build {r : OpcodeRow} (hr : r ∈ opcodeMap) (w : Word) :
    encode (r.build w) = r.pattern ||| (w &&& ~~~r.mask) := by
  revert r
  simp only [opcodeMap, List.forall_mem_cons, encode, commandWord, fieldSlot_shifted_back, fieldHash_shifted_back,
    fieldAlg_shifted_back, fieldImm8_shifted_back]
  simp [BitVec.or_assoc, ← BitVec.and_or_distrib_left]

/-- A row accepts exactly the words that encode what it builds of them. -/
theorem OpcodeRow.accepts_iff_encode_build {r : OpcodeRow} (hr : r ∈ opcodeMap) {w : Word} :
    r.accepts w = true ↔ encode (r.build w) = w := by
  rw [OpcodeRow.accepts_iff, encode_build hr]
  constructor
  · intro ha
    rw [← ha, ← BitVec.and_or_distrib_left, BitVec.or_not_self, BitVec.and_allOnes]
  · intro he
    rw [← he, BitVec.and_or_distrib_right, BitVec.and_assoc, BitVec.not_and_self, pattern_and_mask hr]
    simp

/-- The slot number is read back from a word whose only operand it is. -/
theorem fieldSlot_commandWord {opc slot : Nat} (ho : opc < 256) (hs : slotFits slot = true) :
    fieldSlot (commandWord opc slot 0 0 0) = slot :=
  (commandWord_fields ho (of_decide_eq_true hs) (by decide) (by decide) (by decide)).1

/-- The row of a well-formed command takes the command's operands from the command's word. -/
theorem exists_row_build_encode {i : Instr} (hi : i.wellFormed = true) :
    ∃ r ∈ opcodeMap, r.build (encode i) = i := by
  cases i with
  | prfDerive hash =>
    obtain ⟨-, hhash, -, -⟩ := commandWord_fields (opc := 0x01) (slot := 0) (alg := 0) (bs := 0) (by decide)
      (by decide) (of_decide_eq_true hi) (by decide) (by decide)
    exact ⟨opcodeMap[0], List.getElem_mem _, congrArg Instr.prfDerive hhash⟩
  | keyDerive slot hash alg =>
    obtain ⟨⟨hs, hh⟩, ha⟩ : (slot < 16 ∧ hash < 4) ∧ alg < 4 := by
      simpa [Instr.wellFormed, slotFits, selectorFits] using hi
    obtain ⟨hslot, hhash, halg, -⟩ := commandWord_fields (opc := 0x02) (bs := 0) (by decide) hs hh ha (by decide)
    exact ⟨opcodeMap[1], List.getElem_mem _, congr (congr (congrArg Instr.keyDerive hslot) hhash) halg⟩
  | keyClear slot =>
    exact ⟨opcodeMap[2], List.getElem_mem _, congrArg Instr.keyClear (fieldSlot_commandWord (by decide) hi)⟩
  | padFooter bs =>
    obtain ⟨-, -, -, himm⟩ := commandWord_fields (opc := 0x04) (slot := 0) (hash := 0) (alg := 0) (by decide)
      (by decide) (by decide) (by decide) (of_decide_eq_true hi)
    exact ⟨opcodeMap[3], List.getElem_mem _, congrArg Instr.padFooter himm⟩
  | padStrip => exact ⟨opcodeMap[4], List.getElem_mem _, rfl⟩
  | cbcEncrypt slot =>
    exact ⟨opcodeMap[5], List.getElem_mem _, congrArg Instr.cbcEncrypt (fieldSlot_commandWord (by decide) hi)⟩
  | cbcDecrypt slot =>
    exact ⟨opcodeMap[6], List.getElem_mem _, congrArg Instr.cbcDecrypt (fieldSlot_commandWord (by decide) hi)⟩
  | hmacSign slot =>
    exact ⟨opcodeMap[7], List.getElem_mem _, congrArg Instr.hmacSign (fieldSlot_commandWord (by decide) hi)⟩
  | hmacVerify slot =>
    exact ⟨opcodeMap[8], List.getElem_mem _, congrArg Instr.hmacVerify (fieldSlot_commandWord (by decide) hi)⟩
  | protectChunk slot =>
    exact ⟨opcodeMap[9], List.getElem_mem _, congrArg Instr.protectChunk (fieldSlot_commandWord (by decide) hi)⟩
  | unprotectChunk slot =>
    exact ⟨opcodeMap[10], List.getElem_mem _, congrArg Instr.unprotectChunk (fieldSlot_commandWord (by decide) hi)⟩

/-- Settles O2: for each command one row of the map is left, whose mask and match are the ones named. -/
theorem decodeFollowsTheOpcodeMap : Obligations.DecodeFollowsTheOpcodeMap := by
  intro w
  have hall : w &&& 0xFFFFFFFF#32 = w := BitVec.and_allOnes
  simp only [decode_eq_ok_iff, OpcodeRow.accepts_iff, ← fieldSlot_eq, ← fieldHash_eq, ← fieldAlg_eq, ← fieldImm8_eq]
  simp [opcodeMap, hall, @eq_comm Nat]

/-- Settles O4: the command's row builds it from its word, and so accepts the word. -/
theorem decodeOfEncodeIsTheCommand : Obligations.DecodeOfEncodeIsTheCommand := by
  intro i hi
  obtain ⟨r, hr, hb⟩ := exists_row_build_encode hi
  exact decode_eq_ok_iff.2 ⟨r, hr, (OpcodeRow.accepts_iff_encode_build hr).2 (congrArg encode hb), hb⟩

/-- Settles O5: the row that accepts the word builds a well-formed command, and the word encodes it. -/
theorem encodeOfDecodeIsTheWord : Obligations.EncodeOfDecodeIsTheWord := by
  intro w i hd
  obtain ⟨r, hr, ha, rfl⟩ := decode_eq_ok_iff.1 hd
  exact ⟨r.build_wellFormed hr w, (OpcodeRow.accepts_iff_encode_build hr).1 ha⟩

/-- Settles O1, by evaluating the decoder on each listed word. -/
theorem listedWordsDecode : Obligations.ListedWordsDecode := by
  unfold Obligations.ListedWordsDecode
  decide

namespace Machine

/-! ### Assembler lines (30_encoding.md R119) -/

/-- What an assembler line stands for fits the fields of a word. -/
theorem AsmCommand.instr_wellFormed (c : AsmCommand) : c.instr.wellFormed = true := by
  have hslot (k : Fin 16) : slotFits k = true := decide_eq_true k.isLt
  have hsel (x : BitVec 2) : selectorFits x.toNat = true := decide_eq_true x.isLt
  cases c with
  | prfDerive hash => exact hsel _
  | keyDerive slot alg hash => simp [AsmCommand.instr, Instr.wellFormed, asmHash, hslot, hsel]
  | padFooter bs => exact decide_eq_true bs.isLt
  | padStrip => rfl
  | keyClear slot | cbcEncrypt slot | cbcDecrypt slot | hmacSign slot | hmacVerify slot | protectChunk slot
  | unprotectChunk slot => exact hslot slot

/-- A word whose only operand is a slot number. -/
theorem commandWord_slot (opc slot : Nat) :
    commandWord opc slot 0 0 0 = BitVec.ofNat 32 opc ||| (BitVec.ofNat 32 slot <<< 8) := by
  simp [commandWord]

/-- Settles O6: the lines decode because their commands are well formed; in the words, the fields a form does not use
are zero and drop out. -/
theorem assemblerLinesDecode : Obligations.AssemblerLinesDecode := by
  refine ⟨fun c => decodeOfEncodeIsTheCommand _ c.instr_wellFormed, fun h => ?_, fun k a h => ?_,
    fun k => commandWord_slot 0x03 k, fun b => ?_, rfl,
    fun k => ⟨commandWord_slot 0x06 k, commandWord_slot 0x07 k, commandWord_slot 0x08 k, commandWord_slot 0x09 k,
      commandWord_slot 0x0A k, commandWord_slot 0x0B k⟩, rfl, fun _ _ => rfl, rfl⟩
  · simp [AsmCommand.assemble, AsmCommand.instr, encode, commandWord, asmHash]
  · simp [AsmCommand.assemble, AsmCommand.instr, encode, commandWord, asmHash]
  · simp [AsmCommand.assemble, AsmCommand.instr, encode, commandWord]

/-! ### The engine's turn on an illegal word -/

/-- While the engine is busy and no turn is scheduled, the step is the engine's completion step (log 2). -/
theorem step_of_busy_unscheduled {s : State} (hb : s.busy = true) (ht : s.turns = []) : step s = s.runCommand := by
  simp [step, State.advance, State.nextTurn, State.takeTurn, State.engineTurn, hb, ht]

/-- An illegal word completes with ILLEGAL (60_exceptions.md R331). -/
theorem State.runCommand_of_illegal {s : State} {r : IllegalWord} (hd : decode s.cmd = .error r) :
    s.runCommand = .next (s.complete (.error .illegal)) := by
  simp only [State.runCommand, hd]

/-- An error completion ends with that error. -/
theorem State.completeError_endedWithError (s : State) (c : ErrCode) : s.endedWithError (s.completeError c) c := by
  simp [State.endedWithError]

/-- Settles O8: the engine's completion step takes the error ILLEGAL, and a completion keeps the rest. -/
theorem illegalWordCompletesWithIllegal : Obligations.IllegalWordCompletesWithIllegal := by
  intro s r hb ht hd
  exact ⟨_, (step_of_busy_unscheduled hb ht).trans (State.runCommand_of_illegal hd),
    s.completeError_endedWithError .illegal, s.complete_keeps _⟩

end Machine

end Sys2Proof
end

section
/-! SUPPORT. The byte product of AES as the multiplication of GF(2^8), and the tables of SubBytes and InvSubBytes
(40_primitives.md R157, R159, R160). -/

namespace Sys2Proof.Machine

/-! ### The byte product (40_primitives.md R157) -/

/-- `xtime` shifts, and adds the reduction polynomial exactly when a bit leaves at the top. -/
theorem xtime_eq (a : Byte) : xtime a = (a <<< 1) ^^^ (if a.msb then 0x1B#8 else 0) := by
  have hmsb : (0x80#8 ≤ a) ↔ a.msb = true := by simp [BitVec.msb_eq_decide, BitVec.le_def]
  simp only [xtime, hmsb]
  split_ifs <;> simp

theorem xtime_xor (a b : Byte) : xtime (a ^^^ b) = xtime a ^^^ xtime b := by
  have hcarry (p q : Bool) (c : Byte) :
      (if p ^^ q then c else 0) = (if p then c else 0) ^^^ (if q then c else 0) := by
    cases p <;> cases q <;> simp
  simp only [xtime_eq, BitVec.shiftLeft_xor_distrib, BitVec.msb_xor, hcarry]
  ac_rfl

theorem gfMulBits_xor (n : Nat) (a b c : Byte) :
    gfMulBits n a (b ^^^ c) = gfMulBits n a b ^^^ gfMulBits n a c := by
  induction n generalizing a b c with
  | zero => exact BitVec.xor_self.symm
  | succ n ih =>
    simp only [gfMulBits, xtime_xor, ih]
    split_ifs
    · ac_rfl
    · simp

theorem gfMulBits_xtime (n : Nat) (a b : Byte) : gfMulBits n a (xtime b) = xtime (gfMulBits n a b) := by
  induction n generalizing a b with
  | zero => rfl
  | succ n ih =>
    simp only [gfMulBits, xtime_xor, ih]
    split_ifs <;> rfl

/-- The product distributes over the sum of the field, on the right. -/
theorem gfMul_xor (a b c : Byte) : gfMul a (b ^^^ c) = gfMul a b ^^^ gfMul a c := gfMulBits_xor ..

@[simp] theorem gfMul_zero (a : Byte) : gfMul a 0#8 = 0#8 := by
  have h := gfMul_xor a 0#8 0#8
  simpa using h

@[simp] theorem gfMul_one (a : Byte) : gfMul a 1#8 = a := by
  revert a
  decide +kernel

/-- Multiplying by `a` commutes with sums and with `xtime`, so it passes through a product that is built from them. -/
theorem gfMul_gfMulBits (n : Nat) (a b c : Byte) : gfMul a (gfMulBits n b c) = gfMulBits n b (gfMul a c) := by
  induction n generalizing b c with
  | zero => exact gfMul_zero a
  | succ n ih =>
    have hx : gfMul a (xtime c) = xtime (gfMul a c) := gfMulBits_xtime ..
    simp only [gfMulBits, gfMul_xor, ih, hx]
    split_ifs <;> simp

theorem gfMul_left_comm (a b c : Byte) : gfMul a (gfMul b c) = gfMul b (gfMul a c) := gfMul_gfMulBits 8 a b c

theorem gfMul_comm (a b : Byte) : gfMul a b = gfMul b a := by
  simpa only [gfMul_one] using gfMul_left_comm a b 1#8

theorem gfMul_assoc (a b c : Byte) : gfMul (gfMul a b) c = gfMul a (gfMul b c) := by
  rw [gfMul_comm, gfMul_left_comm, gfMul_comm c]

/-- The product distributes over the sum of the field, on the left. -/
theorem xor_gfMul (a b c : Byte) : gfMul (a ^^^ b) c = gfMul a c ^^^ gfMul b c := by
  simp only [gfMul_comm _ c, gfMul_xor]

@[simp] theorem zero_gfMul (a : Byte) : gfMul 0#8 a = 0#8 := by rw [gfMul_comm, gfMul_zero]

@[simp] theorem one_gfMul (a : Byte) : gfMul 1#8 a = a := by rw [gfMul_comm, gfMul_one]

/-! ### Inverses -/

/-- The inverse of the affine transform of SBOX; it takes 0x63 to 0. -/
def invAffine (y : Byte) : Byte := y.rotateLeft 1 ^^^ y.rotateLeft 3 ^^^ y.rotateLeft 6 ^^^ 0x05#8

/-- The inverse in GF(2^8) that SBOX is made from, with 0 for 0. -/
def gfInv (x : Byte) : Byte := invAffine (sbox x)

theorem gfMul_gfInv {x : Byte} (hx : x ≠ 0#8) : gfMul x (gfInv x) = 1#8 := by
  revert x
  decide +kernel

theorem eq_gfInv_of_gfMul_eq_one {x b : Byte} (h : gfMul x b = 1#8) : b = gfInv x := by
  have hx : x ≠ 0#8 := by
    rintro rfl
    simp at h
  calc b = gfMul (gfMul x (gfInv x)) b := by rw [gfMul_gfInv hx, one_gfMul]
    _ = gfMul (gfMul x b) (gfInv x) := by rw [gfMul_assoc, gfMul_comm (gfInv x), ← gfMul_assoc]
    _ = gfInv x := by rw [h, one_gfMul]

/-! ### The tables (40_primitives.md R159, R160) -/

/-- Bit `i` of the affine transform with constant 0x63. -/
def affineBit (b : Byte) (i : Nat) : Bool :=
  b.getLsbD i ^^ b.getLsbD ((i + 4) % 8) ^^ b.getLsbD ((i + 5) % 8) ^^ b.getLsbD ((i + 6) % 8)
    ^^ b.getLsbD ((i + 7) % 8) ^^ (0x63#8).getLsbD i

/-- Every entry of SBOX is the affine transform of the inverse of its index (40_primitives.md R159). -/
theorem sbox_getLsbD (x : Byte) : ∀ i, i < 8 → (sbox x).getLsbD i = affineBit (gfInv x) i := by
  revert x
  decide +kernel

@[simp] theorem invSbox_sbox (x : Byte) : invSbox (sbox x) = x := by
  revert x
  decide +kernel

@[simp] theorem sbox_invSbox (x : Byte) : sbox (invSbox x) = x := by
  revert x
  decide +kernel

/-- Settles O42: an inverse is unique because the product is commutative and associative, so the entries checked on
`gfInv` are those of the definition. -/
theorem substitutionTablesAreTheirDefinition : Obligations.SubstitutionTablesAreTheirDefinition := by
  refine ⟨fun x b h => ?_, fun x hx => ⟨gfInv x, gfMul_gfInv hx⟩, invSbox_sbox, sbox_invSbox⟩
  have hb : b = gfInv x := by
    rcases h with ⟨rfl, rfl⟩ | h
    · rfl
    · exact eq_gfInv_of_gfMul_eq_one h
  exact hb ▸ sbox_getLsbD x

end Sys2Proof.Machine
end

section
/-! SUPPORT. The inverses of the AES state transformations, the words of the expanded key, and decryption after
encryption (40_primitives.md R158 to R166). -/

namespace Sys2Proof.Machine

/-! ### XOR of strings -/

/-- The same string added twice drops out. -/
theorem xorBytes_xorBytes_cancel {x y : Bytes} (h : x.length ≤ y.length) : xorBytes (xorBytes x y) y = x := by
  refine List.ext_getElem (by simp [h]) fun i _ _ => ?_
  simp [xorBytes]

/-! ### States by row and column (40_primitives.md R158) -/

@[simp] theorem stateByte_stateOf (f : Nat → Nat → Byte) {r c : Nat} (hr : r < 4) (hc : c < 4) :
    stateByte (stateOf f) r c = f r c := by
  have hi : r + 4 * c < 16 := by omega
  have hrow : (r + 4 * c) % 4 = r := by omega
  have hcol : (r + 4 * c) / 4 = c := by omega
  simp [stateByte, stateOf, List.getD, hi, hrow, hcol]

/-- A block is the state of its entries. -/
theorem stateOf_eq_iff {st : Bytes} (h : st.length = 16) {f : Nat → Nat → Byte} :
    stateOf f = st ↔ ∀ r < 4, ∀ c < 4, f r c = stateByte st r c := by
  constructor
  · rintro rfl r hr c hc
    rw [stateByte_stateOf f hr hc]
  · intro hf
    refine List.ext_getElem (by simp [h]) fun i hi _ => ?_
    have hlt : i < 16 := by simpa using hi
    have hrc : i % 4 + 4 * (i / 4) = i := by omega
    simp [stateOf, hf (i % 4) (by omega) (i / 4) (by omega), stateByte, hrc, List.getD, h, hlt]

/-! ### Each transformation and its inverse (40_primitives.md R159 to R162) -/

theorem invSubBytes_subBytes (st : Bytes) : invSubBytes (subBytes st) = st := by
  simp [invSubBytes, subBytes, Function.comp_def]

theorem invShiftRows_shiftRows {st : Bytes} (h : st.length = 16) : invShiftRows (shiftRows st) = st := by
  refine (stateOf_eq_iff h).2 fun r hr c hc => ?_
  have hback : ((c + 4 - r) % 4 + r) % 4 = c := by omega
  rw [shiftRows, stateByte_stateOf _ hr (Nat.mod_lt _ (by decide)), hback]

/-- Two column mixings are one, whose multipliers are the product of the two circulant matrices. -/
theorem mixWith_mixWith (n0 n1 n2 n3 m0 m1 m2 m3 : Byte) (st : Bytes) :
    mixWith n0 n1 n2 n3 (mixWith m0 m1 m2 m3 st) =
      mixWith (gfMul n0 m0 ^^^ gfMul n1 m3 ^^^ gfMul n2 m2 ^^^ gfMul n3 m1)
        (gfMul n0 m1 ^^^ gfMul n1 m0 ^^^ gfMul n2 m3 ^^^ gfMul n3 m2)
        (gfMul n0 m2 ^^^ gfMul n1 m1 ^^^ gfMul n2 m0 ^^^ gfMul n3 m3)
        (gfMul n0 m3 ^^^ gfMul n1 m2 ^^^ gfMul n2 m1 ^^^ gfMul n3 m0) st := by
  refine (stateOf_eq_iff (by simp [mixWith])).2 fun r hr c hc => ?_
  have hrow (i : Nat) : (r + i) % 4 < 4 := Nat.mod_lt _ (by decide)
  simp only [mixWith, stateByte_stateOf, hr, hc, hrow, Nat.mod_add_mod, Nat.add_assoc, Nat.reduceAdd,
    gfMul_xor, xor_gfMul, gfMul_assoc]
  simp only [show (r + 4) % 4 = r by omega, show (r + 5) % 4 = (r + 1) % 4 by omega,
    show (r + 6) % 4 = (r + 2) % 4 by omega]
  ac_rfl

/-- The matrix of InvMixColumns times that of MixColumns is the identity. -/
theorem invMixColumns_mixColumns {st : Bytes} (h : st.length = 16) : invMixColumns (mixColumns st) = st := by
  have hid : invMixColumns (mixColumns st) = mixWith 1#8 0#8 0#8 0#8 st := mixWith_mixWith ..
  rw [hid]
  refine (stateOf_eq_iff h).2 fun r _ c _ => ?_
  simp

/-! ### The expanded key (40_primitives.md R164) -/

theorem length_of_mem_pieces {k n : Nat} {b p : Bytes} (h : k * n ≤ b.length) (hp : p ∈ pieces k n b) :
    p.length = k := by
  induction n generalizing b with
  | zero => simp [pieces] at hp
  | succ n ih =>
    rw [Nat.mul_succ] at h
    rcases List.mem_cons.1 hp with rfl | hp
    · rw [List.length_take]; omega
    · exact ih (by rw [List.length_drop]; omega) hp

theorem expansionTemp_length (nk i : Nat) {prev : Bytes} (h : prev.length = 4) :
    (expansionTemp nk i prev).length = 4 := by
  have hsub (w : Bytes) : (subWord w).length = w.length := List.length_map ..
  have hrot : (rotWord prev).length = 4 := by simp [rotWord, h]
  unfold expansionTemp
  split_ifs <;> simp [hsub, hrot, h]

theorem expandWords_length (nk n i : Nat) (ws : List Bytes) :
    (expandWords nk n i ws).length = ws.length + n := by
  induction n generalizing i ws with
  | zero => rfl
  | succ n ih => rw [expandWords, ih, List.length_cons, Nat.add_assoc, Nat.add_comm 1]

/-- Every word of the expansion has 4 bytes. -/
theorem length_of_mem_expandWords {nk : Nat} (hnk : 0 < nk) (n i : Nat) {ws : List Bytes} (hlen : nk ≤ ws.length)
    (hws : ∀ w ∈ ws, w.length = 4) : ∀ w ∈ expandWords nk n i ws, w.length = 4 := by
  induction n generalizing i ws with
  | zero => exact hws
  | succ n ih =>
    have hget {j : Nat} (hj : j < ws.length) : (ws.getD j []).length = 4 := by
      rw [List.getD_eq_getElem _ _ hj]
      exact hws _ (List.getElem_mem hj)
    refine ih (i + 1) (by rw [List.length_cons]; omega) (List.forall_mem_cons.2 ⟨?_, hws⟩)
    rw [xorBytes_length, hget (by omega), expansionTemp_length nk i (hget (by omega)), Nat.min_self]

theorem keyExpansion_length (key : Bytes) : (keyExpansion key).length = 4 * (aesRounds (keyWords key) + 1) := by
  rw [keyExpansion, List.length_reverse, expandWords_length, List.length_reverse, pieces_length, aesRounds]
  omega

theorem length_of_mem_keyExpansion {key w : Bytes} (hkey : 4 ≤ key.length) (hw : w ∈ keyExpansion key) :
    w.length = 4 := by
  have hnk : 0 < keyWords key := Nat.div_pos hkey (by decide)
  refine length_of_mem_expandWords hnk _ _ ?_ (fun w hw => ?_) w (List.mem_reverse.1 hw)
  · rw [List.length_reverse, pieces_length]
  · exact length_of_mem_pieces (Nat.mul_div_le ..) (List.mem_reverse.1 hw)

/-- Each round key has 16 bytes (40_primitives.md R163). -/
theorem roundKey_length {key : Bytes} (hkey : 4 ≤ key.length) {i : Nat} (hi : i ≤ aesRounds (keyWords key)) :
    (roundKey (keyExpansion key) i).length = 16 := by
  have hget {j : Nat} (hj : j < 4 * (i + 1)) : ((keyExpansion key).getD j []).length = 4 := by
    have hj' : j < (keyExpansion key).length := by rw [keyExpansion_length]; omega
    rw [List.getD_eq_getElem _ _ hj']
    exact length_of_mem_keyExpansion hkey (List.getElem_mem hj')
  simp only [roundKey, List.length_append]
  rw [hget (by omega), hget (by omega), hget (by omega), hget (by omega)]

/-! ### Rounds (40_primitives.md R163, R165, R166) -/

section
variable {ws : List Bytes} {i n : Nat} {st : Bytes}

theorem addRoundKey_length (hk : (roundKey ws i).length = 16) (h : st.length = 16) :
    (addRoundKey ws i st).length = 16 := by
  simp [addRoundKey, hk, h]

/-- A round key added twice drops out. -/
theorem addRoundKey_addRoundKey (hk : (roundKey ws i).length = 16) (h : st.length = 16) :
    addRoundKey ws i (addRoundKey ws i st) = st :=
  xorBytes_xorBytes_cancel (by rw [h, hk])

theorem encRounds_length (hk : ∀ i ≤ n, (roundKey ws i).length = 16) (h : st.length = 16) :
    (encRounds ws n st).length = 16 := by
  cases n with
  | zero => exact h
  | succ n => exact addRoundKey_length (hk _ le_rfl) (mixColumns_length _)

theorem decRounds_length (hk : ∀ i ≤ n, (roundKey ws i).length = 16) (h : st.length = 16) :
    (decRounds ws n st).length = 16 := by
  induction n generalizing st with
  | zero => exact h
  | succ n ih => exact ih (fun i hi => hk i (by omega)) (invMixColumns_length _)

theorem invSubBytes_invShiftRows_shiftRows_subBytes (h : st.length = 16) :
    invSubBytes (invShiftRows (shiftRows (subBytes st))) = st := by
  rw [invShiftRows_shiftRows (by rw [subBytes_length, h]), invSubBytes_subBytes]

/-- The rounds of the decryption take back those of the encryption, with the last round's SubBytes and ShiftRows
standing before the first. -/
theorem decRounds_encRounds (hk : ∀ i ≤ n, (roundKey ws i).length = 16) (h : st.length = 16) :
    decRounds ws n (shiftRows (subBytes (encRounds ws n st))) = shiftRows (subBytes st) := by
  induction n with
  | zero => rfl
  | succ n ih =>
    have hk' : ∀ i ≤ n, (roundKey ws i).length = 16 := fun i hi => hk i (by omega)
    rw [decRounds, invSubBytes_invShiftRows_shiftRows_subBytes (encRounds_length hk h), encRounds,
      addRoundKey_addRoundKey (hk _ le_rfl) (mixColumns_length _), invMixColumns_mixColumns (shiftRows_length _),
      ih hk']

end

/-! ### The cipher -/

theorem aesEnc_length {key : Bytes} (hkey : 4 ≤ key.length) (blk : Bytes) : (aesEnc key blk).length = 16 :=
  addRoundKey_length (roundKey_length hkey le_rfl) (shiftRows_length _)

theorem aesDec_length {key : Bytes} (hkey : 4 ≤ key.length) (blk : Bytes) : (aesDec key blk).length = 16 :=
  addRoundKey_length (roundKey_length hkey (Nat.zero_le _)) ((invSubBytes_length _).trans (invShiftRows_length _))

/-- Decryption takes the transformations of the encryption back, the last one first (40_primitives.md R166). -/
theorem aesDec_aesEnc {key blk : Bytes} (hkey : 4 ≤ key.length) (hblk : blk.length = 16) :
    aesDec key (aesEnc key blk) = blk := by
  have hk : ∀ i ≤ aesRounds (keyWords key), (roundKey (keyExpansion key) i).length = 16 :=
    fun _ => roundKey_length hkey
  have hk' : ∀ i ≤ aesRounds (keyWords key) - 1, (roundKey (keyExpansion key) i).length = 16 :=
    fun i hi => hk i (by omega)
  have hfirst := addRoundKey_length (hk 0 (Nat.zero_le _)) hblk
  simp only [aesDec, aesEnc]
  rw [addRoundKey_addRoundKey (hk _ le_rfl) (shiftRows_length _), decRounds_encRounds hk' hfirst,
    invSubBytes_invShiftRows_shiftRows_subBytes hfirst, addRoundKey_addRoundKey (hk 0 (Nat.zero_le _)) hblk]

/-- Settles O43: the inverse law holds for every key of at least one word. -/
theorem aesDecryptionInvertsEncryption : Obligations.AesDecryptionInvertsEncryption := by
  intro key blk hkey hblk
  have hkey' : 4 ≤ key.length := by omega
  exact ⟨aesEnc_length hkey' blk, aesDec_aesEnc hkey' hblk⟩

end Sys2Proof.Machine
end

section
/-! SUPPORT. The blocks of a string, and CBC decryption after CBC encryption (40_primitives.md R167 to R169). -/

namespace Sys2Proof.Machine

/-! ### Strings of whole blocks -/

/-- Every string of the list is one AES block. -/
def WholeBlocks (ps : List Bytes) : Prop := ∀ p ∈ ps, p.length = aesBlock

theorem wholeBlocks_cons {p : Bytes} {ps : List Bytes} :
    WholeBlocks (p :: ps) ↔ p.length = aesBlock ∧ WholeBlocks ps := List.forall_mem_cons

theorem cipherBlocks_wholeBlocks (b : Bytes) : WholeBlocks (cipherBlocks b) :=
  fun _ => length_of_mem_pieces (Nat.mul_div_le ..)

theorem WholeBlocks.flatten_length {ps : List Bytes} (h : WholeBlocks ps) :
    ps.flatten.length = aesBlock * ps.length := by
  induction ps with
  | nil => rfl
  | cons p ps ih =>
    obtain ⟨hp, hps⟩ := wholeBlocks_cons.1 h
    rw [List.flatten_cons, List.length_append, hp, ih hps, List.length_cons, Nat.mul_succ, Nat.add_comm]

theorem flatten_pieces {k n : Nat} {b : Bytes} (h : b.length = k * n) : (pieces k n b).flatten = b := by
  induction n generalizing b with
  | zero => exact (List.length_eq_zero_iff.1 h).symm
  | succ n ih =>
    rw [pieces, List.flatten_cons, ih (by rw [List.length_drop, h, Nat.mul_succ, Nat.add_sub_cancel]),
      List.take_append_drop]

/-- The blocks of a string of whole blocks give it back. -/
theorem flatten_cipherBlocks {b : Bytes} (h : b.length % 16 = 0) : (cipherBlocks b).flatten = b :=
  flatten_pieces (Nat.mul_div_cancel' (Nat.dvd_of_mod_eq_zero h)).symm

/-- The blocks of blocks set side by side are those blocks. -/
theorem WholeBlocks.cipherBlocks_flatten {ps : List Bytes} (h : WholeBlocks ps) : cipherBlocks ps.flatten = ps := by
  rw [cipherBlocks, h.flatten_length, Nat.mul_div_cancel_left _ (by decide)]
  induction ps with
  | nil => rfl
  | cons p ps ih =>
    obtain ⟨hp, hps⟩ := wholeBlocks_cons.1 h
    rw [List.length_cons, pieces, List.flatten_cons, List.take_left' hp, List.drop_left' hp, ih hps]

/-! ### CBC block after block (40_primitives.md R167, R168) -/

section
variable {key : Bytes} (hkey : 4 ≤ key.length)
include hkey

theorem cbcEncBlocks_wholeBlocks (prev : Bytes) (ps : List Bytes) : WholeBlocks (cbcEncBlocks key prev ps) := by
  induction ps generalizing prev with
  | nil => exact nofun
  | cons p ps ih => exact wholeBlocks_cons.2 ⟨aesEnc_length hkey _, ih _⟩

theorem cbcDecBlocks_wholeBlocks {prev : Bytes} {cs : List Bytes} (hprev : prev.length = aesBlock)
    (hcs : WholeBlocks cs) : WholeBlocks (cbcDecBlocks key prev cs) := by
  induction cs generalizing prev with
  | nil => exact nofun
  | cons c cs ih =>
    obtain ⟨hc, hcs⟩ := wholeBlocks_cons.1 hcs
    refine wholeBlocks_cons.2 ⟨?_, ih hc hcs⟩
    rw [xorBytes_length, aesDec_length hkey, hprev]
    rfl

/-- Each block decrypts to the plaintext block XOR the block before, and that block is added again. -/
theorem cbcDecBlocks_cbcEncBlocks {prev : Bytes} {ps : List Bytes} (hprev : prev.length = aesBlock)
    (hps : WholeBlocks ps) : cbcDecBlocks key prev (cbcEncBlocks key prev ps) = ps := by
  induction ps generalizing prev with
  | nil => rfl
  | cons p ps ih =>
    obtain ⟨hp, hps⟩ := wholeBlocks_cons.1 hps
    have hx : (xorBytes p prev).length = 16 := by rw [xorBytes_length, hp, hprev]; rfl
    simp only [cbcEncBlocks, cbcDecBlocks]
    rw [aesDec_aesEnc hkey hx, xorBytes_xorBytes_cancel (by rw [hp, hprev]), ih (aesEnc_length hkey _) hps]

end

theorem cbcEncBlocks_length (key prev : Bytes) (ps : List Bytes) :
    (cbcEncBlocks key prev ps).length = ps.length := by
  induction ps generalizing prev with
  | nil => rfl
  | cons p ps ih => exact congrArg (· + 1) (ih _)

theorem cbcDecBlocks_length (key prev : Bytes) (cs : List Bytes) :
    (cbcDecBlocks key prev cs).length = cs.length := by
  induction cs generalizing prev with
  | nil => rfl
  | cons c cs ih => exact congrArg (· + 1) (ih _)

/-! ### CBC of a string -/

section
variable {key iv p : Bytes}

/-- As many whole blocks as a string has are as long as the string. -/
theorem WholeBlocks.flatten_length_eq {ps : List Bytes} (h : WholeBlocks ps)
    (hn : ps.length = (cipherBlocks p).length) (hp : p.length % 16 = 0) : ps.flatten.length = p.length := by
  rw [h.flatten_length, hn, ← (cipherBlocks_wholeBlocks p).flatten_length, flatten_cipherBlocks hp]

/-- CBC encryption keeps the length (40_primitives.md R169). -/
theorem cbcEnc_length (hkey : 4 ≤ key.length) (hp : p.length % 16 = 0) : (cbcEnc key iv p).length = p.length :=
  (cbcEncBlocks_wholeBlocks hkey _ _).flatten_length_eq (cbcEncBlocks_length ..) hp

/-- CBC decryption keeps the length (40_primitives.md R169). -/
theorem cbcDec_length (hkey : 4 ≤ key.length) (hiv : iv.length = 16) (hp : p.length % 16 = 0) :
    (cbcDec key iv p).length = p.length :=
  (cbcDecBlocks_wholeBlocks hkey hiv (cipherBlocks_wholeBlocks p)).flatten_length_eq (cbcDecBlocks_length ..) hp

theorem cbcDec_cbcEnc (hkey : 4 ≤ key.length) (hiv : iv.length = 16) (hp : p.length % 16 = 0) :
    cbcDec key iv (cbcEnc key iv p) = p := by
  rw [cbcDec, cbcEnc, (cbcEncBlocks_wholeBlocks hkey _ _).cipherBlocks_flatten,
    cbcDecBlocks_cbcEncBlocks hkey hiv (cipherBlocks_wholeBlocks p), flatten_cipherBlocks hp]

end

/-- Settles O44, from the blocks of the two directions. -/
theorem cbcDecryptionInvertsEncryption : Obligations.CbcDecryptionInvertsEncryption := by
  intro key iv p hkey hiv hp
  have hkey' : 4 ≤ key.length := by omega
  exact ⟨cbcEnc_length hkey' hp, cbcDec_length hkey' hiv hp, cbcDec_cbcEnc hkey' hiv hp⟩

end Sys2Proof.Machine
end

section
/-! SUPPORT. The PRF as the first bytes of its blocks, which answer and which error PRF_DERIVE ends with, and the
statements about it (41_prf.md R200 to R206). -/

namespace Sys2Proof.Machine

/-! ### The PRF by its blocks (41_prf.md R200 to R202) -/

/-- The first `k` blocks of the PRF, `HMAC_h(secret, A(i) ‖ seed)` for `i` from 1 to `k`, where `A(i)` is the `i`-fold
HMAC of the seed (41_prf.md R200). -/
def prfBlocks (h : HashVariant) (secret seed : Bytes) (k : Nat) : Bytes :=
  (List.range k).flatMap fun i => hmac h secret ((hmac h secret)^[i + 1] seed ++ seed)

section
variable (h : HashVariant) (secret seed : Bytes)

theorem prfBlocks_succ (k : Nat) : prfBlocks h secret seed (k + 1)
    = prfBlocks h secret seed k ++ hmac h secret ((hmac h secret)^[k + 1] seed ++ seed) := by
  simp [prfBlocks, List.range_succ]

@[simp] theorem prfBlocks_length (k : Nat) : (prfBlocks h secret seed k).length = k * hlen h := by
  simp [prfBlocks, List.length_flatMap]

/-- More blocks only append to fewer. -/
theorem prfBlocks_prefix {j k : Nat} (hjk : j ≤ k) : prfBlocks h secret seed j <+: prfBlocks h secret seed k := by
  induction k, hjk using Nat.le_induction with
  | base => exact List.prefix_rfl
  | succ k _ ih => exact ih.trans (prfBlocks_succ h secret seed k ▸ List.prefix_append ..)

/-- Wherever it stops, the loop has appended whole blocks: a turn after `k` blocks has `A(k)` in hand. -/
theorem prfLoop_eq_prfBlocks (L n k : Nat) :
    ∃ j, prfLoop h secret seed L n ((hmac h secret)^[k] seed) (prfBlocks h secret seed k)
      = prfBlocks h secret seed j := by
  induction n generalizing k with
  | zero => exact ⟨k, rfl⟩
  | succ n ih =>
    -- The turn makes `A(k + 1)` and appends block `k + 1`.
    simp only [prfLoop, ← Function.iterate_succ_apply' (hmac h secret), ← prfBlocks_succ]
    split_ifs
    · exact ⟨k + 1, rfl⟩
    · exact ih (k + 1)

/-- Any number of blocks that is enough for `n` bytes gives the same `n` bytes. -/
theorem take_prfBlocks {n j k : Nat} (hjk : j ≤ k) (hn : n ≤ j * hlen h) :
    (prfBlocks h secret seed j).take n = (prfBlocks h secret seed k).take n := by
  have hk : n ≤ k * hlen h := hn.trans (Nat.mul_le_mul_right _ hjk)
  refine ((prfBlocks_prefix h secret seed hjk).take n).eq_of_length ?_
  rw [List.length_take_of_le (hn.trans (prfBlocks_length ..).ge),
    List.length_take_of_le (hk.trans (prfBlocks_length ..).ge)]

/-- The PRF is the first bytes of any number of blocks that is enough, however many the loop made. -/
theorem prf_eq_take_prfBlocks {n k : Nat} (hk : n ≤ k * hlen h) :
    prf secret seed n h = (prfBlocks h secret seed k).take n := by
  obtain ⟨j, hj⟩ : ∃ j, prfLoop h secret seed n n seed [] = prfBlocks h secret seed j :=
    prfLoop_eq_prfBlocks h secret seed n n 0
  have hlong : n ≤ j * hlen h := by
    have := prfLoop_length h secret seed n seed [] (L := n) (by simp)
    rwa [hj, prfBlocks_length] at this
  rw [prf, hj]
  rcases le_total j k with hjk | hkj
  · exact take_prfBlocks h secret seed hjk hlong
  · exact (take_prfBlocks h secret seed hkj hk).symm

end

/-- `ceil(n / hlen(h))` blocks hold `n` bytes, and less than one block more. -/
theorem blockCount_bounds (h : HashVariant) (n : Nat) :
    n ≤ (n + hlen h - 1) / hlen h * hlen h ∧ (n + hlen h - 1) / hlen h * hlen h < n + hlen h := by
  cases h <;> simp only [hlen] <;> omega

/-- Settles O39: the loop makes whole blocks, and `ceil(n / hlen(h))` of them are enough. -/
theorem prfIsItsBlocks : Obligations.PrfIsItsBlocks := by
  rintro secret seed _ h n - rfl
  obtain ⟨hle, hlt⟩ := blockCount_bounds h n
  have hlength := prfBlocks_length h secret seed ((n + hlen h - 1) / hlen h)
  exact ⟨prf_eq_take_prfBlocks h secret seed hle, hlength ▸ hle, hlength ▸ hlt⟩

/-- Settles O38: both streams are the first bytes of the same blocks. -/
theorem prfStreamsAreConsistent : Obligations.PrfStreamsAreConsistent := by
  intro secret seed h m n _
  refine ⟨prf_length .., fun hmn => ?_⟩
  have hn : n ≤ n * hlen h := Nat.le_mul_of_pos_right n (hlen_pos h)
  rw [prf_eq_take_prfBlocks h secret seed hn, prf_eq_take_prfBlocks h secret seed (hmn.le.trans hn)]
  exact List.take_prefix_take_left hmn.le

/-! ### How a command ends -/

/-- The error a rule's outcome is completed with: NONE when it ends without error (60_exceptions.md R336). -/
def reportedError : Except ErrCode Effect → ErrCode
  | .error c => c
  | .ok _ => .noError

@[simp] theorem reportedError_error (c : ErrCode) : reportedError (.error c) = c := rfl

@[simp] theorem reportedError_ok (e : Effect) : reportedError (.ok e) = .noError := rfl

/-- A command ends as its rule reports. -/
theorem exec_endedAs_reportedError (i : Instr) (s : State) :
    ∃ t, exec i s = .next t ∧ s.endedAs t (reportedError (commandRule i s)) := by
  refine ⟨_, exec_eq_commandRule i s, ?_⟩
  cases hr : commandRule i s with
  | error c => exact .inr ⟨fun hc => commandRule_ne_noError i s (hc ▸ hr), s.completeError_endedWithError c⟩
  | ok e => exact .inl ⟨rfl, rfl, rfl⟩

/-- A check that fails first gives its error; else what follows decides. -/
@[simp] theorem reportedError_raiseIf_bind (b : Bool) (c : ErrCode) (f : Unit → Except ErrCode Effect) :
    reportedError (raiseIf b c >>= f) = if b then c else reportedError (f ()) := by
  cases b <;> rfl

/-- A read outside `BUF` gives BOUNDS; else what follows decides on the bytes read (20_memory.md R90). -/
@[simp] theorem reportedError_memRead_bind (s : State) (port a n : Nat) (f : Bytes → Except ErrCode Effect) :
    reportedError (s.memRead port a n >>= f)
      = if ¬ a + n ≤ s.params.bufSize then .bounds else reportedError (f (s.bytesAt port a n)) := by
  by_cases hin : a + n ≤ s.params.bufSize
  · rw [State.memRead_eq_ok.2 ⟨hin, rfl⟩, if_neg (not_not.2 hin), ok_bind]
  · rw [State.memRead_eq_error.2 ⟨not_le.1 hin, rfl⟩, if_pos hin, error_bind, reportedError_error]

/-- Every HASH field that is not reserved selects a hash (60_exceptions.md R332). -/
theorem exists_selectHash_eq_ok {n : Nat} (hn : ¬ 1 < n) : ∃ h, selectHash n = .ok h := by
  cases hs : selectHash n with
  | ok h => exact ⟨h, rfl⟩
  | error c => exact absurd (selectHash_eq_error.1 hs).1 hn

/-- An effect completes without error and with its own AUTH and RESULT_LEN (60_exceptions.md R336, log 16). -/
theorem State.completeOk_endedOk (s : State) {e : Effect} (he : e.resultLen < 2 ^ 32) :
    (s.completeOk e).endedOk e.resultLen e.auth :=
  ⟨rfl, rfl, rfl, rfl, rfl, Nat.mod_eq_of_lt he⟩

/-! ### PRF_DERIVE -/

/-- The checks of PRF_DERIVE in their order (41_prf.md R205). -/
theorem prfDeriveRule_reportedError (hash : Nat) (s : State) : reportedError (prfDeriveRule hash s)
    = if 1 < hash then .config
      else if s.outLen = 0 then .config
      else if ¬ s.srcAddr.toNat + s.srcLen.toNat ≤ s.params.bufSize then .bounds
      else if ¬ s.seedAddr.toNat + s.seedLen.toNat ≤ s.params.bufSize then .bounds
      else if ¬ s.dstAddr.toNat + s.outLen.toNat ≤ s.params.bufSize then .bounds
      else .noError := by
  by_cases hh : 1 < hash
  · rw [if_pos hh, prfDeriveRule, selectHash_eq_error.2 ⟨hh, rfl⟩, error_bind, reportedError_error]
  · obtain ⟨h, hsel⟩ := exists_selectHash_eq_ok hh
    have hzero : s.outLen.toNat = 0 ↔ s.outLen = 0 := BitVec.toNat_inj (y := 0)
    simp [prfDeriveRule, hsel, hh, State.sourceInput, State.seedInput, State.checkOut, hzero]

/-- Settles O33: the command ends as its rule reports, and the rule's checks stand in that order. -/
theorem prfDeriveErrorOrder : Obligations.PrfDeriveErrorOrder := fun s hash => by
  rw [← prfDeriveRule_reportedError]
  exact exec_endedAs_reportedError (.prfDerive hash) s

/-- Settles O22: every check passes, so the command completes with the effect of its rule. -/
theorem prfDeriveWritesTheStream : Obligations.PrfDeriveWritesTheStream := by
  intro s h _ hlen hsrc hseed hout
  have hrule := prfDeriveRule_eq_ok.2 ⟨h, rfl, mt (BitVec.toNat_inj (y := 0)).1 hlen, hsrc, hseed, hout, rfl⟩
  rw [exec_eq_commandRule, commandRule, hrule, State.complete_ok]
  exact ⟨_, rfl, prf_length .., s.completeOk_wrote _, rfl, s.complete_keeps (.ok _), s.completeOk_endedOk s.outLen.isLt⟩

/-- Settles O20: the rule is the same function of the two states, and its effect writes no slot. -/
theorem prfDeriveIgnoresSlotsAndLengths : Obligations.PrfDeriveIgnoresSlotsAndLengths := by
  intro s hash slots skl ekl ebs sgl
  have hsame : prfDeriveRule hash
      { s with slots := slots, kcfgSkl := skl, kcfgEkl := ekl, kcfgEbs := ebs, kcfgSgl := sgl }
    = prfDeriveRule hash s := rfl
  simp only [exec_eq_commandRule, commandRule, hsame]
  cases hr : prfDeriveRule hash s with
  | error c => exact ⟨_, rfl, rfl, rfl⟩
  | ok e =>
    obtain ⟨_, -, -, -, -, -, rfl⟩ := prfDeriveRule_eq_ok.1 hr
    exact ⟨_, rfl, rfl, rfl⟩

end Sys2Proof.Machine
end

section
/-! SUPPORT. What KEY_DERIVE and KEY_CLEAR write, which error they end with, and which error the padding commands end
with (42_key_scheduler.md R220 to R231, 43_padding.md R252 to R256). -/

namespace Sys2Proof.Machine

/-! ### The checks of the selectors, of a slot and of a footer -/

/-- Every ALG field that is not reserved selects an algorithm (60_exceptions.md R332). -/
theorem exists_selectAlg_eq_ok {n : Nat} (hn : ¬ 1 < n) : ∃ a, selectAlg n = .ok a := by
  cases hs : selectAlg n with
  | ok a => exact ⟨a, rfl⟩
  | error c => exact absurd (selectAlg_eq_error.1 hs).1 hn

/-- The key length by the ALG field that selects the algorithm (00_scope.md R16). -/
theorem klen_of_selectAlg {n : Nat} {a : CipherAlg} (hn : selectAlg n = .ok a) :
    klen a = if n = 0 then 16 else 32 := by
  obtain rfl := selectAlg_eq_ok.1 hn
  cases a <;> rfl

/-- The hash length by the HASH field that selects the hash (00_scope.md R16). -/
theorem hlen_of_selectHash {n : Nat} {h : HashVariant} (hn : selectHash n = .ok h) :
    hlen h = if n = 0 then 20 else 32 := by
  obtain rfl := selectHash_eq_ok.1 hn
  cases h <;> rfl

/-- A slot number from NKS on gives CONFIG; else what follows decides on that slot (60_exceptions.md R332). -/
@[simp] theorem reportedError_selectSlot_bind (s : State) (k : Nat) (f : KeySlot → Except ErrCode Effect) :
    reportedError (s.selectSlot k >>= f) = if s.params.nks ≤ k then .config else reportedError (f (s.slot k)) := by
  by_cases hk : s.params.nks ≤ k
  · rw [State.selectSlot_eq_error.2 ⟨hk, rfl⟩, if_pos hk, error_bind, reportedError_error]
  · rw [State.selectSlot_eq_ok.2 ⟨not_le.1 hk, rfl⟩, if_neg hk, ok_bind]

/-- A string with no last byte, or shorter than its last byte and the bytes that one counts, gives PROTOCOL; else what
follows decides on the string without its footer (43_padding.md R255). -/
@[simp] theorem reportedError_stripFooter_bind (b : Bytes) (f : Bytes → Except ErrCode Effect) :
    reportedError (stripFooter b >>= f)
      = if b.length = 0 then .protocol
        else if b.length < (b.getD (b.length - 1) 0).toNat + 1 then .protocol
        else reportedError (f (b.take (b.length - ((b.getD (b.length - 1) 0).toNat + 1)))) := by
  simp only [stripFooter, bind_assoc, reportedError_raiseIf_bind, pure_bind, decide_eq_true_eq, gt_iff_lt]

/-- The last byte of a region that is not empty is the byte read at its last address. -/
theorem State.bytesAt_getD_last (s : State) (port a : Nat) {n : Nat} (hn : n ≠ 0) :
    (s.bytesAt port a n).getD (n - 1) 0 = s.byteAt port (a + n - 1) := by
  rw [List.getD_eq_getElem?_getD, State.bytesAt_getElem?, if_pos (by omega), Option.getD_some,
    Nat.add_sub_assoc (by omega)]

/-! ### The declared lengths and the sliced key set -/

theorem State.lengthsConsistent_iff {s : State} {a : CipherAlg} {h : HashVariant} :
    s.lengthsConsistent a h = true ↔ s.kcfgEbs.toNat = 16 ∧ s.kcfgEkl.toNat = klen a
      ∧ s.kcfgSgl.toNat = hlen h ∧ s.kcfgSkl.toNat ≤ s.params.maxSkl := by
  simp [State.lengthsConsistent, and_assoc]

section
variable {s : State} {a : CipherAlg} (hebs : s.kcfgEbs.toNat = 16) (hekl : s.kcfgEkl.toNat = klen a)
include hebs hekl

/-- The length of the stream where EBS and EKL are those of the algorithm (42_key_scheduler.md R221). -/
theorem State.streamLength_eq : s.streamLength = s.kcfgSkl.toNat + klen a + 16 := by
  rw [State.streamLength, hebs, hekl]

/-- The stream is sliced in the order signing key, encrypting key, initialization vector (42_key_scheduler.md R221). -/
theorem State.sliceKeys_eq (h : HashVariant) (stream : Bytes) : s.sliceKeys a h stream =
    { valid := true, alg := a, hash := h
      skl := s.kcfgSkl, ekl := s.kcfgEkl, ebs := s.kcfgEbs, sgl := s.kcfgSgl
      sk := stream.take s.kcfgSkl.toNat
      ek := (stream.drop s.kcfgSkl.toNat).take (klen a)
      iv := (stream.drop (s.kcfgSkl.toNat + klen a)).take 16 } := by
  simp only [State.sliceKeys, slice, hebs, hekl, List.drop_zero, Nat.sub_zero, Nat.add_sub_cancel_left]

end

theorem klen_le (a : CipherAlg) : klen a ≤ 32 := by cases a <;> decide

/-! ### What KEY_DERIVE and KEY_CLEAR write -/

/-- Settles O23: every check passes, so the slot takes the key set sliced from the stream. -/
theorem keyDeriveFillsTheSlot : Obligations.KeyDeriveFillsTheSlot := by
  intro s k h a _ hk hv hebs hekl hsgl hskl hsrc hseed
  have hebs' : s.kcfgEbs.toNat = 16 := congrArg BitVec.toNat hebs
  have hcons := State.lengthsConsistent_iff.2 ⟨hebs', hekl, hsgl, hskl⟩
  have hrule := keyDeriveRule_eq_ok.2 ⟨h, rfl, a, rfl, hk, hv, hcons, hsrc, hseed, rfl⟩
  have hlen : s.kcfgSkl.toNat + klen a + 16 < 2 ^ 32 := by
    have := s.kcfgSkl.isLt
    have := klen_le a
    omega
  rw [State.streamLength_eq hebs' hekl, State.sliceKeys_eq hebs' hekl] at hrule
  rw [exec_eq_commandRule, commandRule, hrule, State.complete_ok]
  exact ⟨_, _, rfl, rfl, rfl, fun _ => rfl, s.complete_keeps (.ok _), s.completeOk_endedOk hlen⟩

/-- Settles O24: the slot file is the old one with the empty slot written at the slot number. -/
theorem keyClearEmptiesTheSlot : Obligations.KeyClearEmptiesTheSlot := by
  intro s k hs hk
  have hin : k < s.slots.length := (State.inv_iff.1 hs).slotCount ▸ hk
  rw [exec_eq_commandRule, commandRule, keyClearRule_eq_ok.2 ⟨hk, rfl⟩, State.complete_ok]
  refine ⟨_, rfl, ?_, fun j hj => ?_, ?_, fun _ => rfl, s.complete_keeps (.ok _),
    s.completeOk_endedOk (Nat.two_pow_pos 32)⟩
  · rw [State.slot_of_set (s.completeOk_slots _), if_pos ⟨rfl, hin⟩]
  · rw [State.slot_of_set (s.completeOk_slots _), if_neg fun hkj => hj hkj.1.symm]
  · rw [State.completeOk_slots, writeSlot_length]

/-! ### The errors in their order -/

/-- The checks of KEY_DERIVE in their order (42_key_scheduler.md R225). -/
theorem keyDeriveRule_reportedError (slot hash alg : Nat) (s : State) :
    reportedError (keyDeriveRule slot hash alg s)
    = if 1 < hash then .config
      else if 1 < alg then .config
      else if s.params.nks ≤ slot then .config
      else if (s.slot slot).valid = true then .slotInUse
      else if s.kcfgEbs.toNat ≠ 16 ∨ s.kcfgEkl.toNat ≠ (if alg = 0 then 16 else 32)
          ∨ s.kcfgSgl.toNat ≠ (if hash = 0 then 20 else 32) ∨ s.params.maxSkl < s.kcfgSkl.toNat then .config
      else if ¬ s.srcAddr.toNat + s.srcLen.toNat ≤ s.params.bufSize then .bounds
      else if ¬ s.seedAddr.toNat + s.seedLen.toNat ≤ s.params.bufSize then .bounds
      else .noError := by
  by_cases hh : 1 < hash
  · rw [if_pos hh, keyDeriveRule, selectHash_eq_error.2 ⟨hh, rfl⟩, error_bind, reportedError_error]
  obtain ⟨h, hsel⟩ := exists_selectHash_eq_ok hh
  by_cases ha : 1 < alg
  · rw [if_neg hh, if_pos ha, keyDeriveRule, hsel, ok_bind, selectAlg_eq_error.2 ⟨ha, rfl⟩, error_bind,
      reportedError_error]
  obtain ⟨a, asel⟩ := exists_selectAlg_eq_ok ha
  -- Both selectors are accepted: the remaining checks compare with the lengths of what they select.
  have hlengths : (!s.lengthsConsistent a h) = true ↔ s.kcfgEbs.toNat ≠ 16 ∨ s.kcfgEkl.toNat ≠ klen a
      ∨ s.kcfgSgl.toNat ≠ hlen h ∨ s.params.maxSkl < s.kcfgSkl.toNat := by
    rw [Bool.not_eq_true', ← Bool.not_eq_true, State.lengthsConsistent_iff]
    simp only [not_and_or, not_le]
  simp only [keyDeriveRule, hsel, asel, hh, ha, ok_bind, if_false, reportedError_selectSlot_bind,
    reportedError_raiseIf_bind, hlengths, State.sourceInput, State.seedInput, reportedError_memRead_bind,
    pure_eq_ok, reportedError_ok, klen_of_selectAlg asel, hlen_of_selectHash hsel]

/-- Settles O34: the command ends as its rule reports, and the rule's checks stand in that order. -/
theorem keyDeriveErrorOrder : Obligations.KeyDeriveErrorOrder := fun s slot hash alg => by
  rw [← keyDeriveRule_reportedError]
  exact exec_endedAs_reportedError (.keyDerive slot hash alg) s

/-- The one check of KEY_CLEAR (42_key_scheduler.md R230). -/
theorem keyClearRule_reportedError (slot : Nat) (s : State) :
    reportedError (keyClearRule slot s) = if s.params.nks ≤ slot then .config else .noError := by
  simp only [keyClearRule, reportedError_selectSlot_bind, pure_eq_ok, reportedError_ok]

/-- The checks of PAD_FOOTER in their order (43_padding.md R252). -/
theorem padFooterRule_reportedError (bs : Nat) (s : State) : reportedError (padFooterRule bs s)
    = if bs = 0 then .config
      else if ¬ s.dstAddr.toNat + (bs - (s.srcLen.toNat + 1) % bs + 1) ≤ s.params.bufSize then .bounds
      else .noError := by
  simp only [padFooterRule, State.checkOut, paddingSize, reportedError_raiseIf_bind, decide_eq_true_eq, gt_iff_lt,
    not_le, pure_eq_ok, reportedError_ok]

/-- The checks of PAD_STRIP in their order (43_padding.md R256). -/
theorem padStripRule_reportedError (s : State) : reportedError (padStripRule s)
    = if ¬ s.srcAddr.toNat + s.srcLen.toNat ≤ s.params.bufSize then .bounds
      else if s.srcLen = 0 then .protocol
      else if s.srcLen.toNat < (s.byteAt firstPort (s.srcAddr.toNat + s.srcLen.toNat - 1)).toNat + 1 then .protocol
      else .noError := by
  have hzero : s.srcLen.toNat = 0 ↔ s.srcLen = 0 := BitVec.toNat_inj (y := 0)
  simp only [padStripRule, State.sourceInput, reportedError_memRead_bind, reportedError_stripFooter_bind,
    State.bytesAt_length, hzero, pure_eq_ok, reportedError_ok]
  by_cases hlen : s.srcLen = 0
  · simp only [if_pos hlen]
  · rw [s.bytesAt_getD_last firstPort s.srcAddr.toNat (mt hzero.1 hlen)]

/-- Settles O35: each command ends as its rule reports, and each rule's checks stand in that order. -/
theorem clearAndPaddingErrorOrder : Obligations.ClearAndPaddingErrorOrder := fun s => by
  refine ⟨fun slot => ?_, fun bs => ?_, ?_⟩
  · rw [← keyClearRule_reportedError]
    exact exec_endedAs_reportedError (.keyClear slot) s
  · rw [← padFooterRule_reportedError]
    exact exec_endedAs_reportedError (.padFooter bs) s
  · rw [← padStripRule_reportedError]
    exact exec_endedAs_reportedError .padStrip s

end Sys2Proof.Machine
end

section
/-! SUPPORT. The size of a footer, the string under a footer, and what PAD_FOOTER and PAD_STRIP do
(43_padding.md R250 to R257). -/

namespace Sys2Proof.Machine

/-! ### The footer (43_padding.md R250, R251) -/

section
variable {bs : Nat} (h : 0 < bs) (n : Nat)
include h

/-- At least one padding byte besides the one that holds the size (43_padding.md R251). -/
theorem paddingSize_pos : 0 < paddingSize n bs := Nat.sub_pos_of_lt (Nat.mod_lt _ h)

/-- The size counts up from the end of the buffer to the next multiple of the block size (43_padding.md R251). -/
theorem paddingSize_aligns : (n + paddingSize n bs + 1) % bs = 0 := by
  have hle : (n + 1) % bs ≤ bs := (Nat.mod_lt _ h).le
  have hdiv : (n + 1) % bs + bs * ((n + 1) / bs) = n + 1 := Nat.mod_add_div ..
  have hsum : n + paddingSize n bs + 1 = bs * ((n + 1) / bs) + bs := by
    rw [paddingSize]
    omega
  rw [hsum, Nat.add_mod_right, Nat.mul_mod_right]

end

theorem paddingSize_le (n bs : Nat) : paddingSize n bs ≤ bs := Nat.sub_le ..

theorem computeFooter_eq {n bs ps : Nat} (h : paddingSize n bs = ps) :
    computeFooter n bs = List.replicate (ps + 1) (BitVec.ofNat 8 ps) := by
  rw [← h]
  rfl

/-- A buffer one byte short of a block gets a whole block more (43_padding.md R251). -/
theorem paddingSize_of_mod_eq_zero {n bs : Nat} (h : (n + 1) % bs = 0) : paddingSize n bs = bs := by
  rw [paddingSize, h, Nat.sub_zero]

/-- Settles O40: size, alignment and length for every block size, and the three residues of block size 16. -/
theorem footerAlignsTheBuffer : Obligations.FooterAlignsTheBuffer := by
  refine ⟨?_, fun n => ?_⟩
  · rintro n bs _ hbs rfl
    have hpos : 1 ≤ paddingSize n bs := paddingSize_pos hbs n
    have hle := paddingSize_le n bs
    rw [computeFooter_length]
    exact ⟨rfl, hpos, hle, paddingSize_aligns hbs n, Nat.succ_le_succ hpos, Nat.succ_le_succ hle,
      fun hmod => computeFooter_eq (paddingSize_of_mod_eq_zero hmod)⟩
  · refine ⟨fun h => computeFooter_eq ?_, fun h => computeFooter_eq ?_, fun h => computeFooter_eq ?_⟩ <;>
      rw [paddingSize] <;> omega

/-! ### Stripping (43_padding.md R255, R257) -/

/-- A string is stripped of its last byte and of as many bytes as that one counts (43_padding.md R255). -/
theorem stripFooter_eq_ok {b p : Bytes} : stripFooter b = .ok p ↔
    b.length ≠ 0 ∧ (b.getD (b.length - 1) 0).toNat + 1 ≤ b.length
      ∧ p = b.take (b.length - ((b.getD (b.length - 1) 0).toNat + 1)) := by
  simp [stripFooter, bind_eq_ok, raiseIf_eq_ok, eq_comm (a := p)]

/-- The string under a run of `n + 1` bytes of value `n`. -/
theorem stripFooter_append_replicate (p : Bytes) {n : Nat} (hn : n < 256) :
    stripFooter (p ++ List.replicate (n + 1) (BitVec.ofNat 8 n)) = .ok p := by
  have hlen : (p ++ List.replicate (n + 1) (BitVec.ofNat 8 n)).length = p.length + (n + 1) := by
    rw [List.length_append, List.length_replicate]
  have hlast : (p ++ List.replicate (n + 1) (BitVec.ofNat 8 n)).getD (p.length + (n + 1) - 1) 0
      = BitVec.ofNat 8 n := by
    rw [Nat.add_succ_sub_one, List.getD_append_right _ _ _ _ (Nat.le_add_right ..), Nat.add_sub_cancel_left,
      List.getD_replicate _ (Nat.lt_succ_self n)]
  rw [stripFooter_eq_ok, hlen, hlast, BitVec.toNat_ofNat, Nat.mod_eq_of_lt hn, Nat.add_sub_cancel, List.take_left]
  exact ⟨by omega, Nat.le_add_left .., rfl⟩

/-- Settles O41: a footer is such a run, and its value fits a byte. -/
theorem stripFooterInvertsComputeFooter : Obligations.StripFooterInvertsComputeFooter := fun b bs _ hbs =>
  stripFooter_append_replicate b (Nat.lt_succ_of_le ((paddingSize_le b.length bs).trans hbs))

/-! ### The commands (43_padding.md R252, R256) -/

/-- Settles O25: both checks pass, so the command completes with the effect of its rule. -/
theorem padFooterWritesTheFooter : Obligations.PadFooterWritesTheFooter := by
  rintro s bs _ _ hpos hbs rfl hout
  have hps : paddingSize s.srcLen.toNat bs ≤ 255 := (paddingSize_le ..).trans hbs
  have hlen : paddingSize s.srcLen.toNat bs + 1 < 2 ^ 32 := by omega
  rw [exec_eq_commandRule, commandRule, padFooterRule_eq_ok.2 ⟨Nat.ne_of_gt hpos, hout, rfl⟩, State.complete_ok]
  exact ⟨_, rfl, s.completeOk_wrote _, paddingSize_pos hpos _, hps, rfl, s.complete_keeps (.ok _),
    s.completeOk_endedOk hlen⟩

/-- Settles O26: the source strips to its first `SRC_LEN - (n + 1)` bytes, and the effect is their number. -/
theorem padStripReportsTheLength : Obligations.PadStripReportsTheLength := by
  intro s n _ hsrc hne hn hle
  have hne' : s.srcLen.toNat ≠ 0 := mt (BitVec.toNat_inj (y := 0)).1 hne
  have hlast : (s.sourceBytes.getD (s.srcLen.toNat - 1) 0).toNat = n := by
    rw [hn, ← State.bytesAt_getD_last _ _ _ hne']
    rfl
  have hstrip : stripFooter s.sourceBytes = .ok (s.sourceBytes.take (s.srcLen.toNat - (n + 1))) := by
    rw [stripFooter_eq_ok, s.sourceBytes_length, hlast]
    exact ⟨hne', hle, rfl⟩
  have hlen : (s.sourceBytes.take (s.srcLen.toNat - (n + 1))).length = s.srcLen.toNat - (n + 1) := by
    rw [List.length_take, s.sourceBytes_length, Nat.min_eq_left (Nat.sub_le ..)]
  have hrule := padStripRule_eq_ok.2 ⟨hsrc, _, hstrip, rfl⟩
  rw [hlen] at hrule
  rw [exec_eq_commandRule, commandRule, hrule, State.complete_ok]
  exact ⟨_, rfl, fun _ => rfl, rfl, s.complete_keeps (.ok _),
    s.completeOk_endedOk ((Nat.sub_le ..).trans_lt s.srcLen.isLt)⟩

end Sys2Proof.Machine
end

section
/-! SUPPORT. What CBC_ENCRYPT and CBC_DECRYPT write, and which error the cipher and signature commands end with
(44_cbc_cipher.md R270 to R276, 45_hmac_signature.md R292, R296). -/

namespace Sys2Proof.Machine

/-! ### The slot of a keyed command -/

/-- A slot that holds a key set has block size 16, and an encrypting key and IV as long as the cipher asks
(10_state.md R46). -/
theorem State.Inv.cipherKeys_length {s : State} (h : s.Inv) {k : Nat} (hk : s.keyed k) :
    (s.slot k).ebs.toNat = 16 ∧ (s.slot k).ek.length = klen (s.slot k).alg ∧ (s.slot k).iv.length = 16 := by
  obtain ⟨hlt, hv⟩ := hk
  have hslot := h.slotsInv _ (s.slot_mem (h.slotCount ▸ hlt))
  obtain ⟨-, hek, hiv, hebs, hekl, -, -⟩ := (KeySlot.inv_iff_of_valid hv).1 hslot
  exact ⟨hebs, hek.trans hekl, hiv.trans hebs⟩

theorem four_le_klen (a : CipherAlg) : 4 ≤ klen a := by cases a <;> decide

/-- A slot number from NKS on gives CONFIG and an invalid slot NOKEY; else what follows decides on that slot
(60_exceptions.md R332, R333). -/
@[simp] theorem reportedError_keyedSlot_bind (s : State) (k : Nat) (f : KeySlot → Except ErrCode Effect) :
    reportedError (s.keyedSlot k >>= f)
      = if s.params.nks ≤ k then .config
        else if (s.slot k).valid = false then .noKey
        else reportedError (f (s.slot k)) := by
  simp only [State.keyedSlot, bind_assoc, reportedError_selectSlot_bind, reportedError_raiseIf_bind, pure_bind,
    Bool.not_eq_true']

/-- An output region outside `BUF` gives BOUNDS; else what follows decides (20_memory.md R91). -/
@[simp] theorem reportedError_checkOut_bind (s : State) (a n : Nat) (f : Unit → Except ErrCode Effect) :
    reportedError (s.checkOut a n >>= f)
      = if ¬ a + n ≤ s.params.bufSize then .bounds else reportedError (f ()) := by
  simp only [State.checkOut, reportedError_raiseIf_bind, decide_eq_true_eq, gt_iff_lt, not_le]

/-! ### What CBC_ENCRYPT and CBC_DECRYPT write -/

/-- A command whose rule only writes bytes at DST_ADDR leaves those bytes, their length and the frame
(60_exceptions.md R336). -/
theorem exec_of_output {s : State} {i : Instr} {out : Bytes} {len : Nat}
    (hrule : commandRule i s = .ok { dst := s.dstAddr.toNat, out := out, resultLen := len }) (hlen : len < 2 ^ 32) :
    ∃ t, exec i s = .next t ∧ s.wrote t s.dstAddr.toNat out ∧ t.slots = s.slots ∧ s.keeps t
      ∧ t.endedOk len false := by
  rw [exec_eq_commandRule, hrule, State.complete_ok]
  exact ⟨_, rfl, s.completeOk_wrote _, rfl, s.complete_keeps (.ok _), s.completeOk_endedOk hlen⟩

/-- Settles O27: every check passes, since EBS is 16, and encryption keeps the length. -/
theorem cbcEncryptWritesTheCiphertext : Obligations.CbcEncryptWritesTheCiphertext := by
  intro s k hs hk hsrc hmod hout
  obtain ⟨hebs, hek, -⟩ := (State.inv_iff.1 hs).cipherKeys_length hk
  have hrule := cbcEncryptRule_eq_ok.2 ⟨hk, hsrc, by rwa [hebs], hout, rfl⟩
  obtain ⟨t, ht, hleaves⟩ := exec_of_output (i := .cbcEncrypt k) hrule s.srcLen.isLt
  refine ⟨t, ht, ?_, hleaves⟩
  rw [← s.sourceBytes_length] at hmod ⊢
  exact cbcEnc_length (hek ▸ four_le_klen _) hmod

/-- Settles O28: every check passes, since EBS is 16, and decryption keeps the length. -/
theorem cbcDecryptWritesThePlaintext : Obligations.CbcDecryptWritesThePlaintext := by
  intro s k hs hk hsrc hmod hout
  obtain ⟨hebs, hek, hiv⟩ := (State.inv_iff.1 hs).cipherKeys_length hk
  have hrule := cbcDecryptRule_eq_ok.2 ⟨hk, hsrc, by rwa [hebs], hout, rfl⟩
  obtain ⟨t, ht, hleaves⟩ := exec_of_output (i := .cbcDecrypt k) hrule s.srcLen.isLt
  refine ⟨t, ht, ?_, hleaves⟩
  rw [← s.sourceBytes_length] at hmod ⊢
  exact cbcDec_length (hek ▸ four_le_klen _) hiv hmod

/-! ### The errors in their order -/

/-- The checks of CBC_ENCRYPT in their order (44_cbc_cipher.md R272). Where the third one is reached the slot holds a
key set, and so its EBS is 16. -/
theorem State.Inv.cbcEncryptRule_reportedError {s : State} (h : s.Inv) (slot : Nat) :
    reportedError (cbcEncryptRule slot s)
    = if s.params.nks ≤ slot then .config
      else if (s.slot slot).valid = false then .noKey
      else if ¬ s.srcAddr.toNat + s.srcLen.toNat ≤ s.params.bufSize then .bounds
      else if s.srcLen.toNat % 16 ≠ 0 then .protocol
      else if ¬ s.dstAddr.toNat + s.srcLen.toNat ≤ s.params.bufSize then .bounds
      else .noError := by
  simp only [cbcEncryptRule, State.sourceInput, reportedError_keyedSlot_bind, reportedError_memRead_bind,
    reportedError_raiseIf_bind, reportedError_checkOut_bind, decide_eq_true_eq, pure_eq_ok, reportedError_ok]
  by_cases hnks : s.params.nks ≤ slot
  · simp only [if_pos hnks]
  by_cases hv : (s.slot slot).valid = false
  · simp only [if_pos hv]
  obtain ⟨hebs, -, -⟩ := h.cipherKeys_length ⟨not_le.1 hnks, Bool.eq_true_of_not_eq_false hv⟩
  rw [hebs]

/-- CBC_DECRYPT checks what CBC_ENCRYPT checks, in the same order (44_cbc_cipher.md R272, R276). -/
theorem cbcDecryptRule_reportedError (slot : Nat) (s : State) :
    reportedError (cbcDecryptRule slot s) = reportedError (cbcEncryptRule slot s) := by
  simp only [cbcDecryptRule, cbcEncryptRule, State.sourceInput, reportedError_keyedSlot_bind,
    reportedError_memRead_bind, reportedError_raiseIf_bind, reportedError_checkOut_bind, pure_eq_ok, reportedError_ok]

/-- The checks of HMAC_SIGN in their order (45_hmac_signature.md R292). -/
theorem hmacSignRule_reportedError (slot : Nat) (s : State) : reportedError (hmacSignRule slot s)
    = if s.params.nks ≤ slot then .config
      else if (s.slot slot).valid = false then .noKey
      else if ¬ s.srcAddr.toNat + s.srcLen.toNat ≤ s.params.bufSize then .bounds
      else if ¬ s.dstAddr.toNat + (s.slot slot).sgl.toNat ≤ s.params.bufSize then .bounds
      else .noError := by
  simp only [hmacSignRule, State.sourceInput, reportedError_keyedSlot_bind, reportedError_memRead_bind,
    reportedError_checkOut_bind, pure_eq_ok, reportedError_ok]

/-- The checks of HMAC_VERIFY in their order (45_hmac_signature.md R296). -/
theorem hmacVerifyRule_reportedError (slot : Nat) (s : State) : reportedError (hmacVerifyRule slot s)
    = if s.params.nks ≤ slot then .config
      else if (s.slot slot).valid = false then .noKey
      else if ¬ s.srcAddr.toNat + s.srcLen.toNat ≤ s.params.bufSize then .bounds
      else if s.srcLen.toNat < (s.slot slot).sgl.toNat then .protocol
      else .noError := by
  simp only [hmacVerifyRule, State.sourceInput, reportedError_keyedSlot_bind, reportedError_memRead_bind,
    reportedError_raiseIf_bind, decide_eq_true_eq, pure_eq_ok, reportedError_ok]

/-- Settles O36: each command ends as its rule reports, and each rule's checks stand in that order. -/
theorem cipherAndSignatureErrorOrder : Obligations.CipherAndSignatureErrorOrder := fun s slot hs => by
  refine ⟨?_, ?_, ?_⟩
  · rintro i (rfl | rfl) <;> rw [← (State.inv_iff.1 hs).cbcEncryptRule_reportedError]
    · exact exec_endedAs_reportedError (.cbcEncrypt slot) s
    · rw [← cbcDecryptRule_reportedError]
      exact exec_endedAs_reportedError (.cbcDecrypt slot) s
  · rw [← hmacSignRule_reportedError]
    exact exec_endedAs_reportedError (.hmacSign slot) s
  · rw [← hmacVerifyRule_reportedError]
    exact exec_endedAs_reportedError (.hmacVerify slot) s

end Sys2Proof.Machine
end

section
/-! SUPPORT. What HMAC_SIGN writes, what HMAC_VERIFY reports, and that a signature written directly after its message
verifies (45_hmac_signature.md R290 to R296). -/

namespace Sys2Proof.Machine

/-! ### Signed buffers (45_hmac_signature.md R291) -/

theorem signedMessage_eq_take (g : Nat) (b : Bytes) : signedMessage g b = b.take (b.length - g) := by
  rw [signedMessage, slice, List.drop_zero, Nat.sub_zero]

theorem claimedSignature_eq_drop (g : Nat) (b : Bytes) : claimedSignature g b = b.drop (b.length - g) := by
  rw [claimedSignature, slice, ← List.length_drop, List.take_length]

/-- The verdict splits a signed buffer SGL bytes before its end. -/
theorem KeySlot.verifies_eq {ks : KeySlot} {b : Bytes} {n : Nat} (hb : b.length = n + ks.sgl.toNat) :
    ks.verifies b = decide (ks.sign (b.take n) = b.drop n) := by
  rw [KeySlot.verifies, signedMessage_eq_take, claimedSignature_eq_drop, hb, Nat.add_sub_cancel]

/-! ### What HMAC_SIGN writes and HMAC_VERIFY reports -/

/-- Settles O29: every check passes, so the command writes the slot's signature of the source. -/
theorem hmacSignWritesTheSignature : Obligations.HmacSignWritesTheSignature := by
  intro s k hs hk hsrc hout
  have hrule := hmacSignRule_eq_ok.2 ⟨hk, hsrc, hout, rfl⟩
  have hlen : (s.slot k).sgl.toNat < 2 ^ 32 := (s.slot k).sgl.isLt.trans (by decide)
  obtain ⟨t, ht, hleaves⟩ := exec_of_output (i := .hmacSign k) hrule hlen
  exact ⟨t, ht, (State.inv_iff.1 hs).sign_length hk _, hleaves⟩

/-- Settles O30: every check passes, so the command reports the verdict of its rule and writes no byte. -/
theorem hmacVerifyReportsTheVerdict : Obligations.HmacVerifyReportsTheVerdict := by
  intro s k n _ hk hsrc hn
  have hverdict : (s.slot k).verifies s.sourceBytes
      = decide ((s.slot k).sign (s.sourceBytes.take n) = s.sourceBytes.drop n) :=
    KeySlot.verifies_eq (s.sourceBytes_length.trans hn)
  have hrule := hmacVerifyRule_eq_ok.2 ⟨hk, hsrc, hn ▸ Nat.le_add_left .., rfl⟩
  have hlen : n < 2 ^ 32 := (hn ▸ Nat.le_add_right ..).trans_lt s.srcLen.isLt
  rw [hn, Nat.add_sub_cancel, hverdict] at hrule
  rw [exec_eq_commandRule, commandRule, hrule, State.complete_ok]
  exact ⟨_, rfl, fun _ => rfl, rfl, s.complete_keeps (.ok _), s.completeOk_endedOk hlen⟩

/-! ### A string written directly after the source -/

/-- `BUF` has at most 2^16 bytes (00_scope.md R11). -/
theorem State.Inv.bufSize_le {s : State} (h : s.Inv) : s.params.bufSize ≤ 2 ^ 16 := by
  have hlegal := h.legal
  simp only [Params.legal, Bool.and_eq_true, decide_eq_true_eq, and_assoc] at hlegal
  obtain ⟨-, hbits, -⟩ := hlegal
  exact Nat.pow_le_pow_right (by decide) hbits

/-- The memory holds the source where its bytes have been written. -/
theorem State.sourceWritten.read_eq {s : State} (h : s.sourceWritten) {i : Nat} (hi : i < s.srcLen.toNat) :
    s.buf.read (s.srcAddr.toNat + i) = s.sourceBytes[i]? := by
  obtain ⟨b, hb⟩ := Option.isSome_iff_exists.1 (h i hi)
  rw [State.sourceBytes, State.bytesAt_getElem?, if_pos hi, State.byteAt_written hb, hb]

/-- A written source with a string written directly after it reads as the two strings joined, in every later draw. -/
theorem State.bytesAt_source_append {s t : State} {out : Bytes} (hsrc : s.sourceWritten)
    (hout : s.wrote t (s.srcAddr.toNat + s.srcLen.toNat) out) (port : Nat) :
    t.bytesAt port s.srcAddr.toNat (s.srcLen.toNat + out.length) = s.sourceBytes ++ out := by
  have hlen : (s.sourceBytes ++ out).length = s.srcLen.toNat + out.length := by
    rw [List.length_append, s.sourceBytes_length]
  rw [← hlen]
  refine State.bytesAt_written (fun i hi => ?_) port
  rw [hout]
  by_cases hmsg : i < s.srcLen.toNat
  · rw [if_neg (by omega), hsrc.read_eq hmsg, List.getElem?_append_left (by rwa [s.sourceBytes_length])]
  · rw [if_pos (by omega), Nat.add_sub_add_left, List.getElem?_append_right (by rw [s.sourceBytes_length]; omega),
      s.sourceBytes_length]

/-! ### Signing, then verifying (45_hmac_signature.md R296) -/

/-- The address directly after a source inside `BUF` does not wrap. -/
theorem State.Inv.srcEnd_toNat {s : State} (h : s.Inv) (hsrc : s.sourceInside) :
    (s.srcAddr + s.srcLen).toNat = s.srcAddr.toNat + s.srcLen.toNat := by
  have hle : s.srcAddr.toNat + s.srcLen.toNat ≤ 2 ^ 16 := hsrc.trans h.bufSize_le
  rw [BitVec.toNat_add, Nat.mod_eq_of_lt (by omega)]

/-- HMAC_SIGN of a written message, the output directly after it, leaves the message with its signature. -/
theorem hmacSign_after_source {s : State} (h : s.Inv) {k : Nat} (hk : s.keyed k) (hw : s.sourceWritten)
    (hdst : s.dstAddr.toNat = s.srcAddr.toNat + s.srcLen.toNat) (hout : s.outputInside (s.slot k).sgl.toNat) :
    ∃ t, exec (.hmacSign k) s = .next t ∧ t.slots = s.slots ∧ s.keeps t
      ∧ ∀ port, t.bytesAt port s.srcAddr.toNat (s.srcLen.toNat + (s.slot k).sgl.toNat)
        = s.sourceBytes ++ (s.slot k).sign s.sourceBytes := by
  have hsrc : s.sourceInside := hdst.ge.trans ((Nat.le_add_right ..).trans hout)
  obtain ⟨t, ht, hlen, hwrote, hslots, hkeeps, -⟩ :=
    hmacSignWritesTheSignature s k (State.inv_iff.2 h) hk hsrc hout
  exact ⟨t, ht, hslots, hkeeps, fun port => hlen ▸ State.bytesAt_source_append hw (hdst ▸ hwrote) port⟩

/-- HMAC_VERIFY of a message with its signature compares the signature with itself. -/
theorem hmacVerify_signed {s : State} (h : s.Inv) {k : Nat} (hk : s.keyed k) (hsrc : s.sourceInside)
    {m : Bytes} (hm : s.sourceBytes = m ++ (s.slot k).sign m) :
    ∃ t, exec (.hmacVerify k) s = .next t ∧ t.endedOk m.length true := by
  have hn : s.srcLen.toNat = m.length + (s.slot k).sgl.toNat := by
    rw [← s.sourceBytes_length, hm, List.length_append, h.sign_length hk]
  obtain ⟨t, ht, -, -, -, hended⟩ := hmacVerifyReportsTheVerdict s k m.length (State.inv_iff.2 h) hk hsrc hn
  have hsame : hmac (s.slot k).hash (s.slot k).sk (s.sourceBytes.take m.length) = s.sourceBytes.drop m.length := by
    rw [hm, List.take_left, List.drop_left, KeySlot.sign]
  exact ⟨t, ht, decide_eq_true hsame ▸ hended⟩

/-- Settles O45: HMAC_SIGN leaves the message with its signature, which is the source of HMAC_VERIFY. -/
theorem signedMessageVerifies : Obligations.SignedMessageVerifies := by
  intro s k n hs hk hw hn hin
  have hinv : s.Inv := State.inv_iff.1 hs
  have hsrc : s.sourceInside := (Nat.add_le_add_left (hn ▸ Nat.le_add_right ..) _).trans hin
  have hdst := hinv.srcEnd_toNat hsrc
  have hword : (BitVec.ofNat 32 n).toNat = n := Nat.mod_eq_of_lt (by have := hinv.bufSize_le; omega)
  have hsign : ({ s with dstAddr := s.srcAddr + s.srcLen } : State).Inv := { hinv with }
  obtain ⟨t, ht, hslots, ⟨hparams, -, -, -, haddr, -⟩, hbytes⟩ := hmacSign_after_source hsign hk hw hdst
    (show (s.srcAddr + s.srcLen).toNat + (s.slot k).sgl.toNat ≤ s.params.bufSize by omega)
  have hslot : t.slot k = s.slot k := State.slot_congr hslots k
  have hverify : ({ t with srcLen := BitVec.ofNat 32 n } : State).Inv := { hsign.exec ht with }
  obtain ⟨u, hu, hended⟩ := hmacVerify_signed hverify (m := s.sourceBytes)
    ⟨hparams ▸ hk.1, hslot ▸ hk.2⟩
    (show t.srcAddr.toNat + (BitVec.ofNat 32 n).toNat ≤ t.params.bufSize by rw [hword, haddr, hparams]; exact hin)
    (show t.bytesAt firstPort t.srcAddr.toNat (BitVec.ofNat 32 n).toNat
      = s.sourceBytes ++ (t.slot k).sign s.sourceBytes by rw [hword, haddr, hslot, hn]; exact hbytes firstPort)
  exact ⟨t, u, ht, hu, s.sourceBytes_length ▸ hended⟩

end Sys2Proof.Machine
end

section
/-! SUPPORT. The string under a chunk and the signed string under its footer, what PROTECT_CHUNK and UNPROTECT_CHUNK
write, which error they end with, and that unprotecting a protected chunk gives the plaintext back
(46_chunk_pipeline.md R310 to R317). -/

namespace Sys2Proof.Machine

/-! ### The padded string (46_chunk_pipeline.md R310, R313, R314) -/

section
variable {s : State} (h : s.Inv) {k : Nat} (hk : s.keyed k) (p : Bytes)
include h hk

/-- Plaintext and signature of a slot that holds a key set. -/
theorem State.Inv.signed_length : (p ++ (s.slot k).sign p).length = p.length + (s.slot k).sgl.toNat := by
  rw [List.length_append, h.sign_length hk]

/-- The footer counts plaintext and signature, for block size 16. -/
theorem State.Inv.padChunk_eq : (s.slot k).padChunk p
    = (p ++ (s.slot k).sign p) ++ computeFooter (p.length + (s.slot k).sgl.toNat) 16 := by
  obtain ⟨hebs, -, -⟩ := h.cipherKeys_length hk
  rw [KeySlot.padChunk, h.signed_length hk, hebs]

theorem State.Inv.padChunk_length : ((s.slot k).padChunk p).length
    = p.length + (s.slot k).sgl.toNat + paddingSize (p.length + (s.slot k).sgl.toNat) 16 + 1 := by
  rw [h.padChunk_eq hk, List.length_append, h.signed_length hk, computeFooter_length, Nat.add_assoc _ _ 1]

/-- The length of the chunk of a command's source, written out (46_chunk_pipeline.md R314). -/
theorem State.Inv.padChunk_source_length : ((s.slot k).padChunk s.sourceBytes).length
    = s.srcLen.toNat + (s.slot k).sgl.toNat + (16 - (s.srcLen.toNat + (s.slot k).sgl.toNat + 1) % 16) + 1 := by
  rw [h.padChunk_length hk, s.sourceBytes_length, paddingSize]

/-- The footer fills the last block (43_padding.md R251). -/
theorem State.Inv.padChunk_aligned : ((s.slot k).padChunk p).length % 16 = 0 := by
  rw [h.padChunk_length hk]
  exact paddingSize_aligns (by decide) _

/-- The padded string strips to plaintext and signature (43_padding.md R257). -/
theorem State.Inv.stripFooter_padChunk : stripFooter ((s.slot k).padChunk p) = .ok (p ++ (s.slot k).sign p) := by
  rw [h.padChunk_eq hk, ← h.signed_length hk]
  exact stripFooterInvertsComputeFooter _ 16 (by decide) (by decide)

/-- A chunk decrypts to the padded string it was made of, which is whole blocks (40_primitives.md R168). -/
theorem State.Inv.cbcDec_chunk : cbcDec (s.slot k).ek (s.slot k).iv
    (cbcEnc (s.slot k).ek (s.slot k).iv ((s.slot k).padChunk p)) = (s.slot k).padChunk p := by
  obtain ⟨-, hek, hiv⟩ := h.cipherKeys_length hk
  exact cbcDec_cbcEnc (hek ▸ four_le_klen _) hiv (h.padChunk_aligned hk p)

/-- A chunk is as long as the string under it (46_chunk_pipeline.md R314). -/
theorem State.Inv.chunk_length : (cbcEnc (s.slot k).ek (s.slot k).iv ((s.slot k).padChunk p)).length
    = ((s.slot k).padChunk p).length := by
  obtain ⟨-, hek, -⟩ := h.cipherKeys_length hk
  exact cbcEnc_length (hek ▸ four_le_klen _) (h.padChunk_aligned hk p)

end

/-! ### What PROTECT_CHUNK and UNPROTECT_CHUNK write -/

/-- PROTECT_CHUNK with room for its chunk writes the chunk of the source (46_chunk_pipeline.md R312). -/
theorem exec_protectChunk {s : State} (h : s.Inv) {k : Nat} (hk : s.keyed k) (hsrc : s.sourceInside)
    (hout : s.outputInside ((s.slot k).padChunk s.sourceBytes).length) :
    ∃ t, exec (.protectChunk k) s = .next t
      ∧ s.wrote t s.dstAddr.toNat (cbcEnc (s.slot k).ek (s.slot k).iv ((s.slot k).padChunk s.sourceBytes))
      ∧ t.slots = s.slots ∧ s.keeps t ∧ t.endedOk ((s.slot k).padChunk s.sourceBytes).length false := by
  have hlen : ((s.slot k).padChunk s.sourceBytes).length ≤ 2 ^ 16 :=
    (Nat.le_add_left ..).trans (hout.trans h.bufSize_le)
  exact exec_of_output (i := .protectChunk k) (protectChunkRule_eq_ok.2 ⟨hk, hsrc, hout, rfl⟩)
    (hlen.trans_lt (by decide))

/-- Settles O31: the chunk is the encryption of the padded string, which is whole blocks. -/
theorem protectChunkWritesTheChunk : Obligations.ProtectChunkWritesTheChunk := by
  rintro s k _ _ hs hk hsrc rfl rfl hout
  have h : s.Inv := State.inv_iff.1 hs
  have hlen := h.padChunk_source_length hk
  obtain ⟨t, ht, hwrote, hslots, hkeeps, hended⟩ := exec_protectChunk h hk hsrc (hlen ▸ hout)
  refine ⟨t, _, ht, ?_, (h.chunk_length hk _).trans hlen, ?_, hwrote, hslots, hkeeps, hlen ▸ hended⟩
  · rw [h.padChunk_eq hk, s.sourceBytes_length]
    rfl
  · rw [h.chunk_length hk]
    exact h.padChunk_aligned hk _

theorem signedMessage_length (g : Nat) (b : Bytes) : (signedMessage g b).length = b.length - g := by
  rw [signedMessage, slice_length, Nat.sub_zero, Nat.sub_zero, Nat.min_eq_left (Nat.sub_le ..)]

/-- UNPROTECT_CHUNK of a chunk over the signed string `b` writes the message of `b`, whatever the verdict, and reports
the verdict on `b` (46_chunk_pipeline.md R316). -/
theorem exec_unprotectChunk {s : State} (h : s.Inv) {k m : Nat} (hk : s.keyed k) (hsrc : s.sourceInside)
    (hmod : s.srcLen.toNat % 16 = 0) {b : Bytes}
    (hstrip : stripFooter (cbcDec (s.slot k).ek (s.slot k).iv s.sourceBytes) = .ok b)
    (hb : b.length = m + (s.slot k).sgl.toNat) (hout : s.outputInside m) :
    ∃ t, exec (.unprotectChunk k) s = .next t ∧ s.wrote t s.dstAddr.toNat (b.take m) ∧ t.slots = s.slots
      ∧ s.keeps t ∧ t.endedOk m (decide ((s.slot k).sign (b.take m) = b.drop m)) := by
  obtain ⟨hebs, -, -⟩ := h.cipherKeys_length hk
  have hmessage : signedMessage (s.slot k).sgl.toNat b = b.take m := by
    rw [signedMessage_eq_take, hb, Nat.add_sub_cancel]
  have hlen : (signedMessage (s.slot k).sgl.toNat b).length = m := by
    rw [signedMessage_length, hb, Nat.add_sub_cancel]
  have hm : m < 2 ^ 32 := ((Nat.le_add_left ..).trans (hout.trans h.bufSize_le)).trans_lt (by decide)
  have hrule := unprotectChunkRule_eq_ok.2
    ⟨hk, hsrc, by rwa [hebs], b, hstrip, hb ▸ Nat.le_add_left .., hlen.symm ▸ hout, rfl⟩
  rw [hlen, hmessage, KeySlot.verifies_eq hb] at hrule
  rw [exec_eq_commandRule, commandRule, hrule, State.complete_ok]
  exact ⟨_, rfl, s.completeOk_wrote _, rfl, s.complete_keeps (.ok _), s.completeOk_endedOk hm⟩

/-- Settles O32: the decrypted string strips to its first `m + SGL` bytes, of which the first `m` are the message. -/
theorem unprotectChunkWritesTheMessage : Obligations.UnprotectChunkWritesTheMessage := by
  rintro s k n m padded hs hk hsrc hmod - hpadded hlast hn hlen hout
  have h : s.Inv := State.inv_iff.1 hs
  obtain ⟨-, hek, hiv⟩ := h.cipherKeys_length hk
  have hpaddedLen : padded.length = s.srcLen.toNat := by
    rw [← s.sourceBytes_length] at hmod ⊢
    rw [hpadded]
    exact cbcDec_length (hek ▸ four_le_klen _) hiv hmod
  have hfooter : (padded.getD (padded.length - 1) 0).toNat = n := by
    rw [List.getD_eq_getElem?_getD, hpaddedLen, hlast, Option.getD_some, BitVec.toNat_ofNat, Nat.mod_eq_of_lt hn]
  have hstrip : stripFooter padded = .ok (padded.take (m + (s.slot k).sgl.toNat)) := by
    rw [stripFooter_eq_ok, hfooter, hpaddedLen, hlen, Nat.add_sub_cancel]
    exact ⟨Nat.succ_ne_zero _, Nat.le_add_left .., rfl⟩
  have hsigned : (padded.take (m + (s.slot k).sgl.toNat)).length = m + (s.slot k).sgl.toNat :=
    List.length_take_of_le (by omega)
  obtain ⟨t, ht, hleaves⟩ := exec_unprotectChunk h hk hsrc hmod (hpadded ▸ hstrip) hsigned hout
  rw [List.take_take, Nat.min_eq_left (Nat.le_add_right ..), List.drop_take, Nat.add_sub_cancel_left] at hleaves
  obtain ⟨hwrote, hslots, hkeeps, hended⟩ := hleaves
  exact ⟨t, ht, hwrote, List.length_take_of_le (by omega), hslots, hkeeps, hended⟩

/-! ### The errors in their order -/

/-- A first input outside `BUF` gives BOUNDS; else what follows decides on its bytes (30_encoding.md R116). -/
@[simp] theorem reportedError_sourceInput_bind (s : State) (f : Bytes → Except ErrCode Effect) :
    reportedError (s.sourceInput >>= f)
      = if ¬ s.srcAddr.toNat + s.srcLen.toNat ≤ s.params.bufSize then .bounds
        else reportedError (f s.sourceBytes) :=
  reportedError_memRead_bind ..

/-- The byte that counts a footer is the last one (43_padding.md R255). -/
theorem getD_length_sub_one_eq_getLastD (b : Bytes) : b.getD (b.length - 1) 0 = b.getLastD 0 := by
  rw [List.getD_eq_getElem?_getD, ← List.getLast?_eq_getElem?, List.getLastD_eq_getLast?]

/-- The checks of PROTECT_CHUNK in their order (46_chunk_pipeline.md R312); none is on the length of the plaintext. -/
theorem State.Inv.protectChunkRule_reportedError {s : State} (h : s.Inv) {slot n : Nat}
    (hn : n = s.srcLen.toNat + (s.slot slot).sgl.toNat) : reportedError (protectChunkRule slot s)
    = if s.params.nks ≤ slot then .config
      else if (s.slot slot).valid = false then .noKey
      else if ¬ s.srcAddr.toNat + s.srcLen.toNat ≤ s.params.bufSize then .bounds
      else if ¬ s.dstAddr.toNat + (n + (16 - (n + 1) % 16) + 1) ≤ s.params.bufSize then .bounds
      else .noError := by
  simp only [protectChunkRule, reportedError_keyedSlot_bind, reportedError_sourceInput_bind,
    reportedError_checkOut_bind, pure_eq_ok, reportedError_ok]
  by_cases hnks : s.params.nks ≤ slot
  · simp only [if_pos hnks]
  by_cases hv : (s.slot slot).valid = false
  · simp only [if_pos hv]
  rw [h.padChunk_source_length ⟨not_le.1 hnks, Bool.eq_true_of_not_eq_false hv⟩, ← hn]

/-- The checks of UNPROTECT_CHUNK in their order (46_chunk_pipeline.md R315, R316). Where the footer is checked the
source is whole blocks, and so the decrypted string is as long as the source. -/
theorem State.Inv.unprotectChunkRule_reportedError {s : State} (h : s.Inv) {slot f : Nat}
    (hf : f = ((cbcDec (s.slot slot).ek (s.slot slot).iv s.sourceBytes).getLastD 0).toNat) :
    reportedError (unprotectChunkRule slot s)
    = if s.params.nks ≤ slot then .config
      else if (s.slot slot).valid = false then .noKey
      else if ¬ s.srcAddr.toNat + s.srcLen.toNat ≤ s.params.bufSize then .bounds
      else if s.srcLen.toNat % 16 ≠ 0 then .protocol
      else if s.srcLen = 0 then .protocol
      else if s.srcLen.toNat < f + 1 then .protocol
      else if s.srcLen.toNat - (f + 1) < (s.slot slot).sgl.toNat then .protocol
      else if ¬ s.dstAddr.toNat + (s.srcLen.toNat - (f + 1) - (s.slot slot).sgl.toNat) ≤ s.params.bufSize
        then .bounds
      else .noError := by
  have hzero : s.srcLen.toNat = 0 ↔ s.srcLen = 0 := BitVec.toNat_inj (y := 0)
  simp only [unprotectChunkRule, reportedError_keyedSlot_bind, reportedError_sourceInput_bind,
    reportedError_raiseIf_bind, reportedError_stripFooter_bind, reportedError_checkOut_bind, decide_eq_true_eq,
    pure_eq_ok, reportedError_ok, signedMessage_length, List.length_take, getD_length_sub_one_eq_getLastD, ← hf,
    Nat.min_eq_left (Nat.sub_le ..)]
  by_cases hnks : s.params.nks ≤ slot
  · simp only [if_pos hnks]
  by_cases hv : (s.slot slot).valid = false
  · simp only [if_pos hv]
  obtain ⟨hebs, hek, hiv⟩ := h.cipherKeys_length ⟨not_le.1 hnks, Bool.eq_true_of_not_eq_false hv⟩
  rw [hebs]
  by_cases hmod : s.srcLen.toNat % 16 ≠ 0
  · simp only [if_pos hmod]
  rw [cbcDec_length (hek ▸ four_le_klen _) hiv (by rw [s.sourceBytes_length]; exact not_not.1 hmod),
    s.sourceBytes_length]
  simp only [hzero]

/-- Settles O37: each command ends as its rule reports, and each rule's checks stand in that order. -/
theorem chunkErrorOrder : Obligations.ChunkErrorOrder := by
  rintro s slot _ n f hs rfl hn hf
  have h : s.Inv := State.inv_iff.1 hs
  refine ⟨?_, ?_⟩
  · rw [← h.protectChunkRule_reportedError hn]
    exact exec_endedAs_reportedError (.protectChunk slot) s
  · rw [← h.unprotectChunkRule_reportedError hf]
    exact exec_endedAs_reportedError (.unprotectChunk slot) s

/-! ### Protecting, then unprotecting (46_chunk_pipeline.md R317) -/

/-- UNPROTECT_CHUNK of a chunk its own slot protects writes the plaintext, and compares its signature with itself. -/
theorem unprotectChunk_chunk {s : State} (h : s.Inv) {k : Nat} (hk : s.keyed k) (hsrc : s.sourceInside) {p : Bytes}
    (hp : s.sourceBytes = cbcEnc (s.slot k).ek (s.slot k).iv ((s.slot k).padChunk p))
    (hout : s.outputInside p.length) :
    ∃ t, exec (.unprotectChunk k) s = .next t ∧ s.wrote t s.dstAddr.toNat p ∧ t.endedOk p.length true := by
  have hmod : s.srcLen.toNat % 16 = 0 := by
    rw [← s.sourceBytes_length, hp, h.chunk_length hk]
    exact h.padChunk_aligned hk p
  have hstrip : stripFooter (cbcDec (s.slot k).ek (s.slot k).iv s.sourceBytes) = .ok (p ++ (s.slot k).sign p) := by
    rw [hp, h.cbcDec_chunk hk, h.stripFooter_padChunk hk]
  obtain ⟨t, ht, hwrote, -, -, hended⟩ :=
    exec_unprotectChunk h hk hsrc hmod hstrip (h.signed_length hk p) hout
  rw [List.take_left] at hwrote hended
  rw [List.drop_left, decide_eq_true rfl] at hended
  exact ⟨t, ht, hwrote, hended⟩

/-- A string written to memory is read at its place. -/
theorem State.wrote.read_eq {s t : State} {dst : Nat} {out : Bytes} (h : s.wrote t dst out) {i : Nat}
    (hi : i < out.length) : t.buf.read (dst + i) = out[i]? := by
  rw [h, if_pos ⟨Nat.le_add_right .., Nat.add_lt_add_left hi _⟩, Nat.add_sub_cancel_left]

/-- Settles O46: PROTECT_CHUNK leaves the chunk of the source, which is the source of UNPROTECT_CHUNK. -/
theorem unprotectInvertsProtect : Obligations.UnprotectInvertsProtect := by
  rintro s k _ dst hs hk hsrc rfl hout hdst
  have h : s.Inv := State.inv_iff.1 hs
  have hlen := h.padChunk_source_length hk
  obtain ⟨t, ht, hwrote, hslots, ⟨hparams, -⟩, hended⟩ := exec_protectChunk h hk hsrc (hlen ▸ hout)
  obtain ⟨-, -, -, -, -, hresult⟩ := hended
  have hslot : t.slot k = s.slot k := State.slot_congr hslots k
  have hunprotect : ({ t with srcAddr := s.dstAddr, srcLen := t.resultLen, dstAddr := dst } : State).Inv :=
    { h.exec ht with }
  have hbytes : t.bytesAt firstPort s.dstAddr.toNat t.resultLen.toNat
      = cbcEnc (t.slot k).ek (t.slot k).iv ((t.slot k).padChunk s.sourceBytes) := by
    rw [hslot, hresult, ← h.chunk_length hk]
    exact State.bytesAt_written (fun _ => hwrote.read_eq) firstPort
  obtain ⟨u, hu, hplain, hended⟩ := unprotectChunk_chunk hunprotect (k := k) (p := s.sourceBytes)
    ⟨hparams ▸ hk.1, hslot ▸ hk.2⟩
    (show s.dstAddr.toNat + t.resultLen.toNat ≤ t.params.bufSize by rw [hresult, hlen, hparams]; exact hout)
    hbytes
    (show dst.toNat + s.sourceBytes.length ≤ t.params.bufSize by rw [s.sourceBytes_length, hparams]; exact hdst)
  exact ⟨t, u, ht, hu, s.sourceBytes_length ▸ hended,
    fun i hi => hplain.read_eq (s.sourceBytes_length.symm ▸ hi)⟩

end Sys2Proof.Machine
end

section
/-! SUPPORT. Which words are illegal (60_exceptions.md R331): a row of the opcode map by the fields of the words it
accepts. -/

namespace Sys2Proof

/-! ### The words a row accepts, by their fields -/

/-- A word is its six fields side by side (30_encoding.md R111). -/
theorem toNat_eq_fields (w : Word) : w.toNat = fieldOpc w + fieldSlot w * 2 ^ 8 + fieldHash w * 2 ^ 12
    + fieldAlg w * 2 ^ 14 + fieldRsv w * 2 ^ 16 + fieldImm8 w * 2 ^ 24 := by
  have hopc : fieldOpc w = w.toNat % 2 ^ 8 := by rw [fieldOpc, BitVec.extractLsb'_toNat, Nat.shiftRight_zero]
  have hrsv : fieldRsv w = w.toNat / 2 ^ 16 % 2 ^ 8 := by
    rw [fieldRsv, BitVec.extractLsb'_toNat, Nat.shiftRight_eq_div_pow]
  rw [hopc, hrsv, fieldSlot_eq, fieldHash_eq, fieldAlg_eq, fieldImm8_eq]
  omega

/-- A word is the command word of an opcode and operands exactly when those are its fields and RSV is zero. -/
theorem commandWord_eq_iff {w : Word} {opc slot hash alg bs : Nat} (ho : opc < 256) (hs : slot < 16) (hh : hash < 4)
    (ha : alg < 4) (hb : bs < 256) : commandWord opc slot hash alg bs = w ↔
      fieldOpc w = opc ∧ fieldRsv w = 0 ∧ fieldSlot w = slot ∧ fieldHash w = hash ∧ fieldAlg w = alg
        ∧ fieldImm8 w = bs := by
  have hopc : fieldOpc w < 256 := BitVec.isLt _
  have hslot : fieldSlot w < 16 := BitVec.isLt _
  have hhash : fieldHash w < 4 := BitVec.isLt _
  have halg : fieldAlg w < 4 := BitVec.isLt _
  have hrsv : fieldRsv w < 256 := BitVec.isLt _
  rw [← BitVec.toNat_inj, commandWord_toNat ho hs hh ha hb, toNat_eq_fields w]
  omega

/-- The fields that the commands with this OPC do not use are zero (30_encoding.md R113, R115). -/
def unusedFieldsZero (w : Word) (opc : Nat) : Prop :=
  fieldRsv w = 0
    ∧ (fieldSlot w = 0 ∨ opc ∉ [0x01, 0x04, 0x05])
    ∧ (fieldHash w = 0 ∨ opc ∈ [0x01, 0x02])
    ∧ (fieldAlg w = 0 ∨ opc = 0x02)
    ∧ (fieldImm8 w = 0 ∨ opc = 0x04)

/-- A row accepts the words that carry its OPC and are zero in the fields it does not use (30_encoding.md R115). -/
theorem OpcodeRow.accepts_iff_fields {r : OpcodeRow} (hr : r ∈ opcodeMap) {w : Word} :
    r.accepts w = true ↔ fieldOpc w = r.pattern.toNat ∧ unusedFieldsZero w r.pattern.toNat := by
  have hslot : fieldSlot w < 16 := BitVec.isLt _
  have hhash : fieldHash w < 4 := BitVec.isLt _
  have halg : fieldAlg w < 4 := BitVec.isLt _
  have himm : fieldImm8 w < 256 := BitVec.isLt _
  rw [accepts_iff_encode_build hr]
  revert r
  simp [opcodeMap, encode, commandWord_eq_iff, unusedFieldsZero, hslot, hhash, halg, himm]

/-- The rows of the opcode map carry the OPC values 1 to 0x0B (30_encoding.md R115). -/
theorem exists_row_with_opc_iff {opc : Nat} :
    (∃ r ∈ opcodeMap, opc = r.pattern.toNat) ↔ opc ≠ 0 ∧ opc ≤ 0x0B := by
  simp only [opcodeMap, List.exists_mem_cons_iff, List.not_mem_nil, false_and, exists_false, or_false,
    BitVec.toNat_ofNat]
  omega

/-- The legal words: an assigned OPC, and zero in every field it does not use. -/
theorem exists_decode_eq_ok_iff {w : Word} :
    (∃ i, decode w = .ok i) ↔ (fieldOpc w ≠ 0 ∧ fieldOpc w ≤ 0x0B) ∧ unusedFieldsZero w (fieldOpc w) := by
  rw [← exists_row_with_opc_iff]
  constructor
  · rintro ⟨i, hd⟩
    obtain ⟨r, hr, ha, -⟩ := decode_eq_ok_iff.1 hd
    obtain ⟨hopc, hzero⟩ := (OpcodeRow.accepts_iff_fields hr).1 ha
    exact ⟨⟨r, hr, hopc⟩, hopc ▸ hzero⟩
  · rintro ⟨⟨r, hr, hopc⟩, hzero⟩
    exact ⟨_, decode_eq_ok_iff.2 ⟨r, hr, (OpcodeRow.accepts_iff_fields hr).2 ⟨hopc, hopc ▸ hzero⟩, rfl⟩⟩

/-- A word is illegal exactly when it is no command. -/
theorem exists_decode_eq_error_iff {w : Word} : (∃ r, decode w = .error r) ↔ ¬ ∃ i, decode w = .ok i := by
  cases decode w <;> simp

/-- Settles O3: the causes listed are what it takes to be no legal word. -/
theorem illegalWordsAreExactlyThese : Obligations.IllegalWordsAreExactlyThese := by
  intro w
  rw [exists_decode_eq_error_iff, exists_decode_eq_ok_iff, unusedFieldsZero]
  have hopc : 0x0B < fieldOpc w ↔ ¬ fieldOpc w ≤ 0x0B := Nat.not_le.symm
  rw [hopc]
  tauto

end Sys2Proof
end

section
/-! SUPPORT. How a command, accepted, ends: its completion, the flags and the interrupt around it, and the turns until
it comes (60_exceptions.md R332 to R347). -/

namespace Sys2Proof.Machine

/-! ### The engine's turn -/

/-- What the word of CMD comes to: the outcome of its command's rule, or ILLEGAL (60_exceptions.md R331, R332). -/
def State.commandOutcome (s : State) : Except ErrCode Effect :=
  match decode s.cmd with
  | .ok i => commandRule i s
  | .error _ => .error .illegal

/-- The engine completes every word (60_exceptions.md R334). -/
theorem State.runCommand_eq_complete (s : State) : s.runCommand = .next (s.complete s.commandOutcome) := by
  unfold State.runCommand State.commandOutcome
  cases decode s.cmd with
  | ok i => exact exec_eq_commandRule i s
  | error r => rfl

theorem State.commandOutcome_ne_noError (s : State) : s.commandOutcome ≠ .error .noError := by
  unfold State.commandOutcome
  cases decode s.cmd with
  | ok i => exact commandRule_ne_noError i s
  | error r => exact nofun

theorem State.runCommand_of_legal {s : State} {i : Instr} (hd : decode s.cmd = .ok i) : s.runCommand = exec i s := by
  simp only [State.runCommand, hd]

theorem State.engineTurn_of_busy {s : State} (hb : s.busy = true) :
    s.engineTurn = .next (s.complete s.commandOutcome) := by
  rw [State.engineTurn, if_pos hb, s.runCommand_eq_complete]

/-- On a scheduled turn of the engine a busy engine runs its command (log 2). -/
theorem step_of_busy_engine_turn {s : State} {ts : List Turn} (hb : s.busy = true) (ht : s.turns = .engine :: ts) :
    step s = ({ s with turns := ts } : State).runCommand := by
  simp [step, State.advance, State.nextTurn, State.takeTurn, State.engineTurn, hb, ht]

/-- A scheduled assertion of the reset input is taken in any phase (70_reset_and_hazards.md R370). -/
theorem step_of_reset_turn {s : State} {ts : List Turn} (ht : s.turns = .reset :: ts) :
    step s = .next ({ s with turns := ts } : State).assertReset := by
  simp [step, State.advance, State.nextTurn, State.takeTurn, ht]

theorem tableWord_32 (w : Nat) : tableWord 32 w = BitVec.ofNat 32 w := by
  exact BitVec.eq_of_toNat_eq (Nat.mod_mod w (2 ^ 32))

/-- Settles O7: the engine's turn, by default and scheduled, runs the command of CMD, and withFetchWord schedules it. -/
theorem stepRunsTheDecodedCommand : Obligations.StepRunsTheDecodedCommand := by
  refine ⟨fun s i hb ht hd => ?_, fun s i ts hb ht hd => ?_, fun s w i hd => ?_⟩
  · rw [step_of_busy_unscheduled hb ht, State.runCommand_of_legal hd]
  · rw [step_of_busy_engine_turn hb ht]
    exact State.runCommand_of_legal hd
  · rw [State.withFetchWord, tableWord_32, step_of_busy_engine_turn rfl rfl]
    exact State.runCommand_of_legal hd

/-! ### Completion -/

/-- How every command ends: idle with DONE, what no command writes kept, and without error or with an error that leaves
every byte and slot (60_exceptions.md R334, R336). -/
def State.completedAs (s t : State) : Prop :=
  t.busy = false ∧ t.done = true ∧ s.keeps t
    ∧ ((t.err = false ∧ t.errCode = .noError) ∨ (t.errCode ≠ .noError ∧ s.endedWithError t t.errCode))

theorem State.complete_completedAs (s : State) {r : Except ErrCode Effect} (hr : r ≠ .error .noError) :
    s.completedAs (s.complete r) := by
  refine ⟨s.complete_busy r, s.complete_done r, s.complete_keeps r, ?_⟩
  cases r with
  | ok e => exact .inl ⟨rfl, rfl⟩
  | error c => exact .inr ⟨fun hc => hr (congrArg _ hc), s.completeError_endedWithError c⟩

/-- What no command writes is as before its completion. -/
theorem exec_keeps {i : Instr} {s t : State} (h : exec i s = .next t) : s.keeps t := by
  rw [exec_eq_commandRule] at h
  cases h
  exact s.complete_keeps _

/-- Settles O17: a command completes with the outcome of its rule, and a word with that of its command or ILLEGAL. -/
theorem everyCommandCompletes : Obligations.EveryCommandCompletes :=
  ⟨fun i s => ⟨_, exec_eq_commandRule i s, s.complete_completedAs (commandRule_ne_noError i s)⟩,
    fun s hb => ⟨_, State.engineTurn_of_busy hb, s.complete_completedAs s.commandOutcome_ne_noError⟩⟩

/-- No rule reads CTRL or a flag (60_exceptions.md R337). -/
theorem commandRule_of_flags (i : Instr) (s : State) (ie done err werr : Bool) :
    commandRule i { s with ctrlIE := ie, done := done, err := err, werr := werr } = commandRule i s := by
  cases i <;> rfl

/-- A completion sets DONE and ERR whatever they were, and leaves CTRL and WERR (60_exceptions.md R336, R339). -/
theorem State.complete_of_flags (s : State) (r : Except ErrCode Effect) (ie done err werr : Bool) :
    ({ s with ctrlIE := ie, done := done, err := err, werr := werr } : State).complete r
      = { s.complete r with ctrlIE := ie, werr := werr } := by
  cases r <;> rfl

/-- Settles O19: the rule gives the same outcome, and the completions differ in CTRL and WERR only. -/
theorem noCommandReadsControlOrFlags : Obligations.NoCommandReadsControlOrFlags := by
  intro i s ie done err werr
  refine ⟨_, exec_eq_commandRule i s, ?_⟩
  rw [exec_eq_commandRule, commandRule_of_flags, State.complete_of_flags]

/-! ### The interrupt (60_exceptions.md R345) -/

theorem State.irq_of_not_done {s : State} (h : s.done = false) : s.irq = false := by
  rw [State.irq, h, Bool.and_false]

/-- A completion raises the interrupt while it is enabled. -/
theorem State.complete_irq (s : State) (r : Except ErrCode Effect) : (s.complete r).irq = s.ctrlIE := by
  obtain ⟨-, hie, -⟩ := s.complete_keeps r
  rw [State.irq, s.complete_done, hie, Bool.and_true]

/-- Settles O60: a completion sets DONE, and the acknowledgement and the accept clear it. -/
theorem interruptFollowsDone : Obligations.InterruptFollowsDone := by
  refine ⟨fun s t hb h => ?_, fun s => Bool.and_eq_true_iff, fun s t v h hv => ?_, fun s t v hb h => ?_⟩
  · rw [State.engineTurn_of_busy hb] at h
    cases h
    exact s.complete_irq _
  · cases (s.store32_register v .status).symm.trans h
    exact State.irq_of_not_done (by simp [State.writeReg, hv])
  · cases (State.store32_idle (r := .cmd) hb rfl).symm.trans h
    exact State.irq_of_not_done rfl

/-! ### The write error flag (60_exceptions.md R339) -/

theorem Reg.offset_of_atOffset {off : Nat} {r : Reg} (h : Reg.atOffset off = some r) : r.offset = off :=
  of_decide_eq_true (List.find?_some (p := fun r : Reg => decide (r.offset = off)) h)

/-- A write that only an idle engine takes leaves WERR, or is dropped (10_state.md R38). -/
theorem State.unlessBusy_werr {s t : State} (h : t.werr = s.werr) :
    (s.unlessBusy t).werr = s.werr ∨ (s.busy = true ∧ s.unlessBusy t = s.dropWrite) := by
  rcases s.unlessBusy_cases t with hdrop | ⟨-, e⟩
  · exact .inr hdrop
  · exact .inl ((congrArg State.werr e).trans h)

theorem State.writeReg_werr (s : State) (v : Word) {r : Reg} (hr : r ≠ .status) :
    (s.writeReg v r).werr = s.werr ∨ (s.busy = true ∧ s.writeReg v r = s.dropWrite) := by
  cases r with
  | id | caps | ctrl | resultLen => exact .inl rfl
  | status => exact absurd rfl hr
  | cmd | srcAddr | srcLen | seedAddr | seedLen | dstAddr | outLen | kcfg0 | kcfg1 => exact State.unlessBusy_werr rfl

theorem State.hostWriteBuf_werr (s : State) (a : Nat) (v : Bytes) :
    (s.hostWriteBuf a v).werr = s.werr ∨ (s.busy = true ∧ s.hostWriteBuf a v = s.dropWrite) :=
  State.unlessBusy_werr rfl

/-- What a 32-bit write does to WERR: nothing; it is dropped; or it acknowledges STATUS. -/
theorem State.store32_werr {s t : State} {off : Nat} {v : Word} (h : s.store32 off v = .ok t) :
    t.werr = s.werr ∨ (s.busy = true ∧ t = s.dropWrite) ∨ (off = 0x00C ∧ t = s.ackStatus v) := by
  rcases State.store32_eq_ok h with rfl | ⟨r, hr, -, rfl⟩ | ⟨a, -, -, -, rfl⟩
  · exact .inl rfl
  · by_cases hstatus : r = .status
    · subst hstatus
      exact .inr (.inr ⟨(Reg.offset_of_atOffset hr).symm, rfl⟩)
    · exact (s.writeReg_werr v hstatus).imp_right .inl
  · exact (s.hostWriteBuf_werr a _).imp_right .inl

theorem State.store8_werr {s t : State} {off : Nat} {v : Byte} (h : s.store8 off v = .ok t) :
    t.werr = s.werr ∨ (s.busy = true ∧ t = s.dropWrite) := by
  rcases State.store8_eq_ok h with rfl | ⟨a, -, -, rfl⟩
  exacts [.inl rfl, s.hostWriteBuf_werr a _]

/-- What a host operation does to WERR: nothing; a write of a busy engine is dropped; or STATUS is acknowledged. -/
theorem State.perform_werr {s t : State} {op : HostOp} {rest : List HostOp} (h : s.perform op rest = .next t) :
    t.werr = s.werr
      ∨ (s.busy = true ∧ op.isWrite = true ∧ t = ({ s with hostOps := rest } : State).dropWrite)
      ∨ ∃ v, op = .write32 0x00C#32 v ∧ t.werr = (s.werr && !v.getLsbD 4) := by
  rcases State.perform_eq_next h with ⟨off, v, rfl, e⟩ | ⟨off, v, rfl, e⟩ | ⟨-, v, rfl⟩ | ⟨-, ⟨-, rfl⟩ | ⟨-, rfl⟩⟩
  · rcases State.store32_werr e with hw | ⟨hb, rfl⟩ | ⟨hoff, rfl⟩
    · exact .inl hw
    · exact .inr (.inl ⟨hb, rfl, rfl⟩)
    · obtain rfl : off = 0x00C#32 := BitVec.eq_of_toNat_eq hoff
      exact .inr (.inr ⟨v, rfl, rfl⟩)
  · rcases State.store8_werr e with hw | ⟨hb, rfl⟩
    · exact .inl hw
    · exact .inr (.inl ⟨hb, rfl, rfl⟩)
  all_goals exact .inl rfl

/-- What a step does to WERR: nothing; a reset clears it; a busy engine drops a write; or the host acknowledges. -/
theorem step_werr {s t : State} (h : step s = .next t) :
    t.werr = s.werr
      ∨ (s.nextTurn.1 = .reset ∧ t.werr = false)
      ∨ (s.nextTurn.1 = .host ∧ ∃ op rest, s.hostOps = op :: rest ∧ s.busy = true ∧ op.isWrite = true
          ∧ t.werr = true ∧ t.err = s.err ∧ t.errCode = s.errCode)
      ∨ (s.nextTurn.1 = .host ∧ ∃ v rest, s.hostOps = .write32 0x00C#32 v :: rest
          ∧ t.werr = (s.werr && !v.getLsbD 4)) := by
  have hbusy : s.nextTurn.2.busy = s.busy := by rw [s.nextTurn_snd]
  have hwerr : s.nextTurn.2.werr = s.werr := by rw [s.nextTurn_snd]
  have herr : s.nextTurn.2.err = s.err := by rw [s.nextTurn_snd]
  have hcode : s.nextTurn.2.errCode = s.errCode := by rw [s.nextTurn_snd]
  rcases step_eq_next h with ⟨hr, rfl⟩ | ⟨-, -, i, -, e⟩ | ⟨-, -, -, rfl⟩ | ⟨-, -, rfl⟩ | ⟨-, -, rfl⟩
    | ⟨ht, op, rest, ho, e⟩
  · exact .inr (.inl ⟨hr, rfl⟩)
  · obtain ⟨-, -, hw, -⟩ := exec_keeps e
    exact .inl (hw.trans hwerr)
  · exact .inl hwerr
  · exact .inl hwerr
  · exact .inl hwerr
  · rcases State.perform_werr e with hw | ⟨hb, hop, rfl⟩ | ⟨v, rfl, hw⟩
    · exact .inl (hw.trans hwerr)
    · exact .inr (.inr (.inl ⟨ht, op, rest, ho, hbusy ▸ hb, hop, rfl, herr, hcode⟩))
    · exact .inr (.inr (.inr ⟨ht, v, rest, ho, hwerr ▸ hw⟩))

/-- Settles O15: of the four things a step can do to WERR, only a dropped write sets it, and only a reset or an
acknowledgement of its own bit clears it. -/
theorem writeErrorFlagIsSticky : Obligations.WriteErrorFlagIsSticky := by
  intro s t h
  rcases step_werr h with hw | ⟨hr, hw⟩ | ⟨ht, op, rest, ho, hb, hop, hw, herr, hcode⟩ | ⟨ht, v, rest, ho, hw⟩
  · exact ⟨fun h1 h0 => by simp [hw, h1] at h0, fun h0 h1 => by simp [hw, h0] at h1⟩
  · exact ⟨fun _ _ => .inl hr, fun _ h1 => by simp [hw] at h1⟩
  · exact ⟨fun _ h0 => by simp [hw] at h0, fun _ _ => ⟨hb, ht, ⟨op, rest, ho, hop⟩, herr, hcode⟩⟩
  · exact ⟨fun h1 h0 => .inr ⟨ht, v, rest, ho, by simpa [h1, h0] using hw⟩, fun h0 h1 => by simp [hw, h0] at h1⟩

/-! ### Until the completion (60_exceptions.md R346) -/

theorem State.unlessBusy_outside {s t : State} (h : t.hostOps = s.hostOps ∧ t.turns = s.turns) :
    (s.unlessBusy t).hostOps = s.hostOps ∧ (s.unlessBusy t).turns = s.turns := by
  rcases s.unlessBusy_cases t with ⟨-, e⟩ | ⟨-, e⟩ <;> rw [e]
  exacts [⟨rfl, rfl⟩, h]

/-- A register write touches neither the host's list nor the schedule. -/
theorem State.writeReg_outside (s : State) (v : Word) (r : Reg) :
    (s.writeReg v r).hostOps = s.hostOps ∧ (s.writeReg v r).turns = s.turns := by
  cases r with
  | id | caps | ctrl | status | resultLen => exact ⟨rfl, rfl⟩
  | cmd | srcAddr | srcLen | seedAddr | seedLen | dstAddr | outLen | kcfg0 | kcfg1 =>
    exact State.unlessBusy_outside ⟨rfl, rfl⟩

theorem State.store32_outside {s t : State} {off : Nat} {v : Word} (h : s.store32 off v = .ok t) :
    t.hostOps = s.hostOps ∧ t.turns = s.turns := by
  rcases State.store32_eq_ok h with rfl | ⟨r, -, -, rfl⟩ | ⟨a, -, -, -, rfl⟩
  exacts [⟨rfl, rfl⟩, s.writeReg_outside v r, State.unlessBusy_outside ⟨rfl, rfl⟩]

theorem State.store8_outside {s t : State} {off : Nat} {v : Byte} (h : s.store8 off v = .ok t) :
    t.hostOps = s.hostOps ∧ t.turns = s.turns := by
  rcases State.store8_eq_ok h with rfl | ⟨a, -, -, rfl⟩
  exacts [⟨rfl, rfl⟩, State.unlessBusy_outside ⟨rfl, rfl⟩]

/-- A host operation leaves the schedule, and leaves the host's list unless it is taken from it. -/
theorem State.perform_outside {s t : State} {op : HostOp} {rest : List HostOp} (h : s.perform op rest = .next t) :
    (t.hostOps = rest ∨ t.hostOps = s.hostOps) ∧ t.turns = s.turns := by
  rcases State.perform_eq_next h with ⟨_, _, -, e⟩ | ⟨_, _, -, e⟩ | ⟨-, v, rfl⟩ | ⟨-, ⟨-, rfl⟩ | ⟨-, rfl⟩⟩
  · exact (State.store32_outside e).imp_left .inl
  · exact (State.store8_outside e).imp_left .inl
  · exact ⟨.inl rfl, rfl⟩
  · exact ⟨.inl rfl, rfl⟩
  · exact ⟨.inr rfl, rfl⟩

/-- No operation of the host's list draws a bus error (20_memory.md R85). -/
def State.hostAllowed (s : State) : Prop := ∀ op ∈ s.hostOps, op.allowed s.params = true

/-- A step whose host draws no bus error answers a next state. -/
theorem exists_step_eq_next {s : State} (h : s.hostAllowed) : ∃ t, step s = .next t := by
  obtain ⟨hrefused, hfault⟩ := stepFaultsExactlyOnBusErrors s
  cases hs : step s with
  | next t => exact ⟨t, rfl⟩
  | refused r => exact absurd hs (hrefused r)
  | fault f =>
    obtain ⟨-, op, rest, ho, hop⟩ := hfault.1 ⟨f, hs⟩
    exact absurd (h op (ho ▸ List.mem_cons_self ..)) (by simp [hop])

/-- A scheduled host turn of a busy engine takes that turn from the schedule and leaves the engine busy. -/
theorem step_of_busy_host_turn {s : State} {ts : List Turn} (hb : s.busy = true) (ht : s.turns = .host :: ts)
    (h : s.hostAllowed) : ∃ t, step s = .next t ∧ t.busy = true ∧ t.turns = ts ∧ t.hostAllowed := by
  have hn := s.nextTurn_eq_host (.inr ht)
  obtain ⟨t, e⟩ := exists_step_eq_next h
  have hsame := State.sameCommand.ofHostStep hb (by rw [hn]) e
  have hbusy : t.busy = true := by rw [hsame]; exact hb
  have hparams : t.params = s.params := by rw [hsame]
  have hrest : t.turns = ts ∧ ∀ op ∈ t.hostOps, op ∈ s.hostOps := by
    cases ho : s.hostOps with
    | nil =>
      have hnil : step s = .next { s with turns := ts } := by
        simp [step, State.advance, hn, State.takeTurn, State.hostTurn, ho]
      cases hnil.symm.trans e
      exact ⟨rfl, fun op hop => ho ▸ hop⟩
    | cons op rest =>
      rw [step_of_host_turn (by rw [hn]) ho, hn] at e
      obtain ⟨hops, hturns⟩ := State.perform_outside e
      refine ⟨hturns, fun x hx => ?_⟩
      rcases hops with hr | hr
      · exact List.mem_cons_of_mem op (hr ▸ hx)
      · exact ho ▸ hr ▸ hx
  obtain ⟨hturns, hmem⟩ := hrest
  exact ⟨t, e, hbusy, hturns, fun op hop => hparams ▸ h op (hmem op hop)⟩

/-- One step and then a run of `k` more is a run of `k + 1`. -/
theorem run_succ_of_step {s t : State} (h : step s = .next t) (k : Nat) :
    Host.Core.run Sys2Proof.core (k + 1) s = Host.Core.run Sys2Proof.core k t := by
  have hcore : Sys2Proof.core.step s = .next t := h
  simp only [Host.Core.run, hcore]

theorem run_one_of_step {s t : State} (h : step s = .next t) : Host.Core.run Sys2Proof.core 1 s = .next t :=
  run_succ_of_step h 0

/-- Settles O18, by induction on the schedule: a host turn leaves the engine busy under a shorter schedule, and any
other turn ends the command. -/
theorem acceptedCommandCompletes : Obligations.AcceptedCommandCompletes := by
  intro s hb hops
  generalize hts : s.turns = ts
  induction ts generalizing s with
  | nil =>
    have e := (step_of_busy_unscheduled hb hts).trans s.runCommand_eq_complete
    exact ⟨1, _, by simp, run_one_of_step e, s.complete_busy _, fun _ => s.complete_done _⟩
  | cons turn ts ih =>
    cases turn with
    | engine =>
      have e := (step_of_busy_engine_turn hb hts).trans (State.runCommand_eq_complete _)
      exact ⟨1, _, by simp, run_one_of_step e, State.complete_busy .., fun _ => State.complete_done ..⟩
    | reset =>
      exact ⟨1, _, by simp, run_one_of_step (step_of_reset_turn hts), rfl,
        fun hno => absurd (List.mem_cons_self ..) hno⟩
    | host =>
      obtain ⟨t, e, hbt, htt, hopst⟩ := step_of_busy_host_turn hb hts hops
      obtain ⟨k, u, hk, hrun, hidle, hdone⟩ := ih t hbt hopst htt
      refine ⟨k + 1, u, Nat.succ_le_succ hk, (run_succ_of_step e k).trans hrun, hidle, fun hno => ?_⟩
      exact hdone fun hmem => hno (List.mem_cons_of_mem _ hmem)

end Sys2Proof.Machine
end

section
/-! SUPPORT. The reset input (70_reset_and_hazards.md R370), and that a command whose inputs are written is the same
under every draw of the free values (70_reset_and_hazards.md R376). -/

namespace Sys2Proof.Machine

/-! ### The reset input -/

/-- Settles O12: the turn asserts the reset input, which leaves only what stands outside the block. -/
theorem resetInputRestoresTheResetState : Obligations.ResetInputRestoresTheResetState :=
  fun _ _ ht => step_of_reset_turn ht

/-! ### Written inputs under another draw -/

section
variable {s : State} (d : Nat)

/-- A region whose bytes are written reads the same under every draw, inside `BUF` or not (log 3). -/
theorem State.memRead_of_draw {a n : Nat} (h : ∀ i, i < n → (s.buf.read (a + i)).isSome = true) (port : Nat) :
    ({ s with draw := d } : State).memRead port a n = s.memRead port a n := by
  have hbytes : ({ s with draw := d } : State).bytesAt port a n = s.bytesAt port a n :=
    List.map_congr_left fun i hi => by
      obtain ⟨b, hb⟩ := Option.isSome_iff_exists.1 (h i (List.mem_range.1 hi))
      rw [State.byteAt_written hb]
      exact State.byteAt_written (s := { s with draw := d }) hb port
  rw [State.memRead, State.memRead, hbytes]

/-- Where the inputs a command reads are written, its rule answers the same under every draw. PAD_FOOTER and KEY_CLEAR
read none, and only PRF_DERIVE and KEY_DERIVE read the second (30_encoding.md R116). -/
theorem commandRule_of_draw {i : Instr}
    (hsource : (∃ bs, i = .padFooter bs) ∨ (∃ k, i = .keyClear k) ∨ s.sourceWritten)
    (hseed : (∃ h, i = .prfDerive h) ∨ (∃ k h a, i = .keyDerive k h a) → s.seedWritten) :
    commandRule i { s with draw := d } = commandRule i s := by
  obtain ⟨bs, rfl⟩ | ⟨slot, rfl⟩ | hsource := hsource
  · rfl
  · rfl
  have source : ({ s with draw := d } : State).sourceInput = s.sourceInput := State.memRead_of_draw d hsource firstPort
  have seed (h : s.seedWritten) : ({ s with draw := d } : State).seedInput = s.seedInput :=
    State.memRead_of_draw d h secondPort
  cases i with
  | padFooter | keyClear => rfl
  | prfDerive hash =>
    simp only [commandRule, prfDeriveRule, source, seed (hseed (.inl ⟨_, rfl⟩))]
    rfl
  | keyDerive slot hash alg =>
    simp only [commandRule, keyDeriveRule, source, seed (hseed (.inr ⟨_, _, _, rfl⟩))]
    rfl
  | padStrip => rw [commandRule, padStripRule, source, ← padStripRule]
  | cbcEncrypt | cbcDecrypt | hmacSign | hmacVerify | protectChunk | unprotectChunk =>
    simp only [commandRule, cbcEncryptRule, cbcDecryptRule, hmacSignRule, hmacVerifyRule, protectChunkRule,
      unprotectChunkRule, source]
    rfl

/-- A completion advances the draw and reads it for nothing else (log 5). -/
theorem State.complete_of_draw (r : Except ErrCode Effect) :
    ({ s with draw := d } : State).complete r = { s.complete r with draw := d + 1 } := by
  cases r <;> rfl

end

/-- Settles O21: the rule gives the same outcome, and the completions differ in the draw only. -/
theorem writtenInputsLeaveNothingFree : Obligations.WrittenInputsLeaveNothingFree := by
  intro i s d hsource hseed
  refine ⟨_, exec_eq_commandRule i s, ?_⟩
  rw [exec_eq_commandRule, commandRule_of_draw d hsource hseed, State.complete_of_draw]

end Sys2Proof.Machine
end

section
/-! SUPPORT. Commands in sequence that each write directly after their source, and that HMAC_SIGN, PAD_FOOTER and
CBC_ENCRYPT build the chunk of PROTECT_CHUNK (70_reset_and_hazards.md R384). -/

namespace Sys2Proof.Machine

/-! ### A source continued by an output -/

/-- `t` keeps the slots of `s`, and its source, from the same address on, is the source of `s` with `out` directly after
it, every byte of it written. -/
structure State.Continues (s t : State) (out : Bytes) : Prop where
  inv : t.Inv
  params : t.params = s.params
  slots : t.slots = s.slots
  srcAddr : t.srcAddr = s.srcAddr
  written : t.sourceWritten
  bytes : t.sourceBytes = s.sourceBytes ++ out

namespace State.Continues
variable {s t u : State} {a b : Bytes}

theorem trans (hst : s.Continues t a) (htu : t.Continues u b) : s.Continues u (a ++ b) where
  inv := htu.inv
  params := htu.params.trans hst.params
  slots := htu.slots.trans hst.slots
  srcAddr := htu.srcAddr.trans hst.srcAddr
  written := htu.written
  bytes := by rw [htu.bytes, hst.bytes, List.append_assoc]

theorem slot (h : s.Continues t a) (k : Nat) : t.slot k = s.slot k := State.slot_congr h.slots k

theorem keyed (h : s.Continues t a) {k : Nat} (hk : s.keyed k) : t.keyed k :=
  ⟨h.params ▸ hk.1, h.slot k ▸ hk.2⟩

end State.Continues

/-- A written source with a string written directly after it is a written source of the two strings joined. -/
theorem State.sourceWritten.append {s t : State} {out : Bytes} (hw : s.sourceWritten)
    (hout : s.wrote t (s.srcAddr.toNat + s.srcLen.toNat) out) (haddr : t.srcAddr = s.srcAddr)
    (hlen : t.srcLen.toNat = s.srcLen.toNat + out.length) :
    t.sourceWritten ∧ t.sourceBytes = s.sourceBytes ++ out := by
  have hbytes : t.sourceBytes = s.sourceBytes ++ out := by
    rw [State.sourceBytes, haddr, hlen]
    exact State.bytesAt_source_append hw hout firstPort
  refine ⟨fun i hi => ?_, hbytes⟩
  rw [hlen] at hi
  rw [haddr, hout]
  by_cases hmsg : i < s.srcLen.toNat
  · rw [if_neg (by omega)]
    exact hw i hmsg
  · rw [if_pos (by omega), List.getElem?_eq_getElem (by omega)]
    rfl

/-! ### The chunk by unit commands (70_reset_and_hazards.md R384) -/

/-- A length inside `BUF` fits a register. -/
theorem State.Inv.toNat_ofNat {s : State} (h : s.Inv) {a n : Nat} (hn : a + n ≤ s.params.bufSize) :
    (BitVec.ofNat 32 n).toNat = n :=
  Nat.mod_eq_of_lt (by have := h.bufSize_le; omega)

section
variable {s : State} (h : s.Inv) (hw : s.sourceWritten) (hdst : s.dstAddr = s.srcAddr + s.srcLen) {n : Nat}
  (hin : s.srcAddr.toNat + n ≤ s.params.bufSize) (dst : Word)
include h hw hdst hin

/-- A command that only writes, directly after its written source, continues that source once the host sets SRC_LEN to
take the output in. -/
theorem exec_continues {i : Instr} {out : Bytes} {len : Nat} (hlen : out.length = len)
    (hn : n = s.srcLen.toNat + len)
    (hrule : s.sourceInside → s.outputInside len →
      commandRule i s = .ok { dst := s.dstAddr.toNat, out := out, resultLen := len }) :
    ∃ t, exec i s = .next t ∧ s.Continues { t with srcLen := BitVec.ofNat 32 n, dstAddr := dst } out := by
  have hsrc : s.sourceInside := (Nat.add_le_add_left (hn ▸ Nat.le_add_right ..) _).trans hin
  have hend : s.dstAddr.toNat = s.srcAddr.toNat + s.srcLen.toNat := hdst ▸ h.srcEnd_toNat hsrc
  have hout : s.outputInside len := by
    rw [State.outputInside, hend, Nat.add_assoc, ← hn]
    exact hin
  have hfits : len < 2 ^ 32 := ((Nat.le_add_left ..).trans (hout.trans h.bufSize_le)).trans_lt (by decide)
  obtain ⟨t, ht, hwrote, hslots, ⟨hparams, -, -, -, haddr, -⟩, -⟩ := exec_of_output (hrule hsrc hout) hfits
  obtain ⟨hwritten, hbytes⟩ := hw.append (t := { t with srcLen := BitVec.ofNat 32 n, dstAddr := dst })
    (hend ▸ hwrote) haddr ((h.toNat_ofNat hin).trans (hlen ▸ hn))
  exact ⟨t, ht, { h.exec ht with }, hparams, hslots, haddr, hwritten, hbytes⟩

/-- HMAC_SIGN directly after its written source continues it by the signature. -/
theorem hmacSign_continues {k : Nat} (hk : s.keyed k) (hn : n = s.srcLen.toNat + (s.slot k).sgl.toNat) :
    ∃ t, exec (.hmacSign k) s = .next t
      ∧ s.Continues { t with srcLen := BitVec.ofNat 32 n, dstAddr := dst } ((s.slot k).sign s.sourceBytes) :=
  exec_continues h hw hdst hin dst (h.sign_length hk _) hn
    fun hsrc hout => hmacSignRule_eq_ok.2 ⟨hk, hsrc, hout, rfl⟩

/-- PAD_FOOTER directly after its written source continues it by the footer. -/
theorem padFooter_continues {bs m : Nat} (hbs : bs ≠ 0) (hm : s.srcLen.toNat = m)
    (hn : n = m + (paddingSize m bs + 1)) :
    ∃ t, exec (.padFooter bs) s = .next t
      ∧ s.Continues { t with srcLen := BitVec.ofNat 32 n, dstAddr := dst } (computeFooter m bs) := by
  subst hm
  exact exec_continues h hw hdst hin dst (computeFooter_length ..) hn
    fun _ hout => padFooterRule_eq_ok.2 ⟨hbs, hout, rfl⟩

end

/-- HMAC_SIGN directly after the plaintext, then PAD_FOOTER directly after the signature, continue the plaintext by both
(70_reset_and_hazards.md R384). -/
theorem hmacSign_padFooter_continues {s : State} (h : s.Inv) {k : Nat} (hk : s.keyed k) (hw : s.sourceWritten)
    {n len : Nat} (hn : n = s.srcLen.toNat + (s.slot k).sgl.toNat) (hlen : len = n + (paddingSize n 16 + 1))
    (hin : s.srcAddr.toNat + len ≤ s.params.bufSize) (dst : Word) :
    ∃ s1 s2, exec (.hmacSign k) { s with dstAddr := s.srcAddr + s.srcLen } = .next s1
      ∧ exec (.padFooter 16)
          { s1 with srcLen := BitVec.ofNat 32 n, dstAddr := s.srcAddr + BitVec.ofNat 32 n } = .next s2
      ∧ s.Continues { s2 with srcLen := BitVec.ofNat 32 len, dstAddr := dst }
          ((s.slot k).sign s.sourceBytes ++ computeFooter n 16) := by
  have hnin : s.srcAddr.toNat + n ≤ s.params.bufSize := (Nat.add_le_add_left (hlen ▸ Nat.le_add_right ..) _).trans hin
  obtain ⟨s1, hs1, hsigned⟩ := hmacSign_continues (s := { s with dstAddr := s.srcAddr + s.srcLen }) { h with } hw rfl
    hnin (s.srcAddr + BitVec.ofNat 32 n) hk hn
  obtain ⟨s2, hs2, hfooter⟩ := padFooter_continues hsigned.inv hsigned.written (hsigned.srcAddr ▸ rfl)
    (by rw [hsigned.params, hsigned.srcAddr]; exact hin) dst (by decide) (h.toNat_ofNat hnin) hlen
  exact ⟨s1, s2, hs1, hs2, { hsigned.trans hfooter with }⟩

/-- CBC_ENCRYPT of a padded string writes the chunk that stands over it. -/
theorem cbcEncrypt_padChunk {s : State} (h : s.Inv) {k : Nat} (hk : s.keyed k) (hsrc : s.sourceInside)
    (hout : s.outputInside s.srcLen.toNat) {p : Bytes} (hp : s.sourceBytes = (s.slot k).padChunk p) :
    ∃ t, exec (.cbcEncrypt k) s = .next t
      ∧ s.wrote t s.dstAddr.toNat (cbcEnc (s.slot k).ek (s.slot k).iv ((s.slot k).padChunk p))
      ∧ t.endedOk s.srcLen.toNat false := by
  have hmod : s.srcLen.toNat % 16 = 0 := by
    rw [← s.sourceBytes_length, hp]
    exact h.padChunk_aligned hk p
  obtain ⟨t, ht, -, hwrote, -, -, hended⟩ :=
    cbcEncryptWritesTheCiphertext s k (State.inv_iff.2 h) hk hsrc hmod hout
  exact ⟨t, ht, hp ▸ hwrote, hended⟩

/-- Settles O47: signature and footer continue the plaintext to the padded string, which PROTECT_CHUNK encrypts too. -/
theorem unitCommandsBuildTheChunk : Obligations.UnitCommandsBuildTheChunk := by
  intro s k n len hs hk hw hn hlen hin hout
  have h : s.Inv := State.inv_iff.1 hs
  have hsrc : s.sourceInside := by rw [State.sourceInside]; omega
  have hlenword := h.toNat_ofNat hin
  have hpad : (s.slot k).padChunk s.sourceBytes
      = s.sourceBytes ++ ((s.slot k).sign s.sourceBytes ++ computeFooter n 16) := by
    rw [h.padChunk_eq hk, s.sourceBytes_length, ← hn, List.append_assoc]
  have hpadlen : ((s.slot k).padChunk s.sourceBytes).length = len := by
    rw [h.padChunk_source_length hk, ← hn, hlen]
  obtain ⟨s1, s2, hs1, hs2, hpadded⟩ := hmacSign_padFooter_continues h hk hw hn hlen hin s.dstAddr
  obtain ⟨s3, hs3, hunits, hended3⟩ := cbcEncrypt_padChunk hpadded.inv (hpadded.keyed hk) (p := s.sourceBytes)
    (by rw [State.sourceInside, hpadded.params, hpadded.srcAddr, hlenword]; exact hin)
    (by rw [State.outputInside, hpadded.params, hlenword]; exact hout)
    (by rw [hpadded.bytes, hpadded.slot, hpad])
  rw [hpadded.slot] at hunits
  obtain ⟨t, ht, hwhole, -, -, hended⟩ := exec_protectChunk h hk hsrc (hpadlen ▸ hout)
  refine ⟨s1, s2, s3, t, hs1, hs2, hs3, ht, hlenword ▸ hended3, hpadlen ▸ hended, fun i hi => ?_⟩
  rw [← hpadlen, ← h.chunk_length hk] at hi
  rw [hunits.read_eq hi, hwhole.read_eq hi, List.getElem?_eq_getElem hi]
  exact ⟨rfl, rfl⟩

end Sys2Proof.Machine
end
